-- ==== Sys2Proof/Word.lean ====
section
/-! DEFINITION. The word types of the DX4120: bytes on the wire, and the five-bit position. -/
namespace Sys2Proof

/-- One byte of a frame or of the configuration record (00 section 6.6). -/
abbrev Byte := BitVec 8

/-- A position on the machine, 0 to 31 (00 section 6.1): the width of the straps and of the source field. -/
abbrev Position := BitVec 5

end Sys2Proof
end

