-- ==== Sys2Proof/Syntax.lean ====
section
/-! DEFINITION. The commands of the block: one constructor of `Instr` for each row of spec/opcode_table.json, with the
operands its rules need. Fields of frames are the bytes as carried on the line (R164). -/
namespace Sys2Proof

/-- One of the two span lines (10, introduction). -/
inductive Line where
  | a
  | b
  deriving DecidableEq, Repr, Inhabited

/-- The header of a checked frame (Table 11-1) and the line it arrived on. -/
structure Header where
  line   : Line
  source : Position
  seq    : Byte
  order  : Byte
  deriving DecidableEq, Repr, Inhabited

/-- The body of a STATUS frame, byte for byte (Table 11-3). -/
structure StatusBody where
  state           : Byte
  flags           : Byte
  lead            : BitVec 16
  strides         : BitVec 16
  reasons         : Byte
  reach           : Byte
  cause           : Byte
  origin          : Byte
  actionDirection : Byte
  pace            : Byte
  deriving DecidableEq, Repr, Inhabited

/-- The 7th, 8th and 9th samples of the ten bits of one character (R148), each a plane of ten bits: bit 0 the start
bit, bits 1 to 8 the data bits in the order sent (least significant first), bit 9 the stop bit; 1 is recessive. -/
structure CharacterSamples where
  seventh : BitVec 10
  eighth  : BitVec 10
  ninth   : BitVec 10
  deriving DecidableEq, Repr, Inhabited

/-- The two times an access gap is measured by, in character times (R152, R154, log 5): how long the send line has been
idle, and how long ago the last clash was. -/
structure GapTimes where
  idle       : Nat
  sinceClash : Nat
  deriving DecidableEq, Repr, Inhabited

/-- The commands. Each constructor's row and rule stand in its docstring. `ready` operands give the raw level of the
ready input (high = true) at the moment an exchange begins inside the step (log 22). -/
inductive Instr where
  /-- POWER_ON_RESET (R168). -/
  | powerOnReset
  /-- POWER_ON_RESET_END (R169), with the level of the five straps. -/
  | powerOnResetEnd (straps : Position)
  /-- RESET_PIN_ASSERT (R168). -/
  | resetPinAssert
  /-- RESET_PIN_RELEASE (R169), with the level of the five straps. -/
  | resetPinRelease (straps : Position)
  /-- CONFIG_READ_COMPLETE (R170), with the 32 bytes clocked in. -/
  | configReadComplete (image : List Byte) (ready : Bool)
  /-- CONTACTOR_REST_END (R3). -/
  | contactorRestEnd
  /-- DWELL_TIMER_EXPIRY (R6). -/
  | dwellTimerExpiry
  /-- LAMP_BLINK_STEP (R22). -/
  | lampBlinkStep
  /-- LOCAL_TIME_TICK (R113). -/
  | localTimeTick
  /-- SAMPLE_TIMER_EXPIRY (R43). -/
  | sampleTimerExpiry (ready : Bool)
  /-- READY_ASSERT (R44). -/
  | readyAssert
  /-- READY_TIMEOUT (R44). -/
  | readyTimeout (nextReady : Bool)
  /-- SHORT (R45). -/
  | short (nextReady : Bool)
  /-- SHIFT_COMPLETE (R46), with the 24 bits received, first bit the most significant. -/
  | shiftComplete (word : BitVec 24) (nextReady : Bool)
  /-- WHEEL_INPUT_CHANGE (R59), with the new level (high = true). -/
  | wheelInputChange (high : Bool)
  /-- WHEEL_PULSE (R60). -/
  | wheelPulse
  /-- PULSE_FILTER_RELEASE (R59). -/
  | pulseFilterRelease
  /-- STALL_TIMER_EXPIRY (R62). -/
  | stallTimerExpiry
  /-- RETRY_PAUSE_END (R65). -/
  | retryPauseEnd
  /-- COAST_WINDOW_EXPIRY (R68). -/
  | coastWindowExpiry
  /-- END_OF_ON_PART (R97). -/
  | endOfOnPart
  /-- END_OF_PERIOD (R97). -/
  | endOfPeriod
  /-- STALE_AGE_PASSED (R113) of the record of a position. -/
  | staleAgePassed (position : Position)
  /-- LOST_LIMIT_PASSED (R114) of the record of a position. -/
  | lostLimitPassed (position : Position)
  /-- MUSTER_TIMER_EXPIRY (R127). -/
  | musterTimerExpiry
  /-- LOOP_SENSE_CHANGE (R136), with the new raw level (current present = true). -/
  | loopSenseChange (present : Bool)
  /-- LOOP_SENSE_SETTLED (R136). -/
  | loopSenseSettled
  /-- CHARACTER_RECEIVED (R148) on a line, as sampled. -/
  | characterReceived (line : Line) (samples : CharacterSamples)
  /-- RECEIVER_IDLE (R149). -/
  | receiverIdle (line : Line)
  /-- FRAME_CHECK_FAILED (R150). -/
  | frameCheckFailed (line : Line)
  /-- STATUS_FRAME (R111). -/
  | statusFrame (header : Header) (body : StatusBody)
  /-- RUN_ORDER (R126): an ORDER frame with action RUN. -/
  | runOrder (header : Header) (direction pace : Byte)
  /-- STOP_ORDER (R124): an ORDER frame with action STOP. -/
  | stopOrder (header : Header) (direction pace : Byte)
  /-- CLEAR_ORDER (R125): an ORDER frame with action CLEAR. -/
  | clearOrder (header : Header) (direction pace : Byte)
  /-- HOLD_FRAME (R75). -/
  | holdFrame (header : Header) (reasons reach : Byte)
  /-- FREE_FRAME (R77). -/
  | freeFrame (header : Header)
  /-- ANSWER_FRAME (R112). -/
  | answerFrame (header : Header) (item argument : Byte) (data : BitVec 64)
  /-- HALT_RECORD (R145): an ASK for that item. -/
  | haltRecord (header : Header) (target argument : Byte)
  /-- ROSTER_VIEW (R116): an ASK for that item. -/
  | rosterView (header : Header) (target argument : Byte)
  /-- LINE_COUNTS (R161): an ASK for that item. -/
  | lineCounts (header : Header) (target argument : Byte)
  /-- DRIVE_COUNTS (R70): an ASK for that item. -/
  | driveCounts (header : Header) (target argument : Byte)
  /-- CONFIG_DIGEST (R166): an ASK for that item. -/
  | configDigest (header : Header) (target argument : Byte)
  /-- HOLD_VIEW (R81): an ASK for that item. -/
  | holdView (header : Header) (target argument : Byte)
  /-- ORDER_VIEW (R133): an ASK for that item. -/
  | orderView (header : Header) (target argument : Byte)
  /-- HALT_POINT (R145): an ASK for that item. -/
  | haltPoint (header : Header) (target argument : Byte)
  /-- LINE_FAULTS (R161): an ASK for that item. -/
  | lineFaults (header : Header) (target argument : Byte)
  /-- ASK_UNKNOWN_ITEM (R167): an ASK with an unknown item or an out-of-range argument. -/
  | askUnknownItem (header : Header) (target item argument : Byte)
  /-- REPORT_TIMER_EXPIRY (R159). -/
  | reportTimerExpiry
  /-- TRANSMISSION_START (R153), with the times of its gap at that moment. -/
  | transmissionStart (times : GapTimes)
  /-- TRANSMISSION_COMPLETE (R153). -/
  | transmissionComplete
  /-- CLASH (R154). -/
  | clash
  /-- QUIET_TIMER_EXPIRY (R151) of a line. -/
  | quietTimerExpiry (line : Line)
  /-- SEIZE_DETECTED (R157) on a line. -/
  | seizeDetected (line : Line)
  /-- SEIZE_END (R156). -/
  | seizeEnd
  /-- ANSWER_DISCARD (R160). -/
  | answerDiscard
  /-- ORDER_UNDEFINED_ACTION (R120): an ORDER frame whose action code is none of the three. -/
  | orderUndefinedAction (header : Header) (action direction pace : Byte)
  deriving DecidableEq, Repr

end Sys2Proof
end

