-- ==== Sys2Proof/Config.lean ====
section
/-! DEFINITION. The one free value of the model. Everything the part fixes is written in the Machine files. -/
namespace Sys2Proof

/-- FREE VALUE (log 9). Where one step makes a report of the run request and a halt request together, the spec gives
the outcome of either order and no rule for the order (R39): `true` when the report is taken first. It is applied to
the counter `State.choices`, so that each such meeting has an order of its own. It has no body. -/
opaque Config.reportTakenFirst : Nat → Bool

end Sys2Proof
end

