-- ==== Sys2Proof/Machine/State.lean ====
section
/-! DEFINITION. The state of one DX4120 as plain data, block by block (00 section 3), and its value after a power-on
reset has begun. Timers hold `none` while stopped and `some` of the remaining time while running. -/
namespace Sys2Proof.Machine

/-- The DIRECTION output and the direction of an order (R5, Table 11-4). -/
inductive Direction where
  | forward
  | reverse
  deriving DecidableEq, Repr, Inhabited

/-- The nine drive states (R1, Table 1-1). -/
inductive DriveState where
  | offline
  | idle
  | dwell
  | muster
  | wait
  | run
  | held
  | stalled
  | halted
  deriving DecidableEq, Repr, Inhabited

/-- The offline causes (R12, R169). -/
inductive OfflineCause where
  | configCheck
  | configRange
  | positionRange
  | positionConflict
  deriving DecidableEq, Repr, Inhabited

/-- The ten halt causes (Table 9-2). -/
inductive HaltCause where
  | misalign
  | stall
  | creep
  | sensor
  | peerLost
  | panelLost
  | musterTimeout
  | loopOpen
  | seized
  | restart
  deriving DecidableEq, Repr, Inhabited

/-- The three claim reasons (Table 5-3). -/
inductive ClaimReason where
  | lag
  | stall
  | sensor
  deriving DecidableEq, Repr, Inhabited

/-- The action of an order (Table 11-4). -/
inductive Action where
  | stop
  | run
  | clear
  deriving DecidableEq, Repr, Inhabited

/-- The contactor rest timer (R3): RESTING with the remaining tenths, or RESTED. -/
inductive RestTimer where
  | resting (remaining : Nat)
  | rested
  deriving DecidableEq, Repr, Inhabited

/-- The two reset lines (R168): a power-on reset in progress, and the reset pin as asserted. -/
structure ResetLines where
  powerOn : Bool
  pin     : Bool
  deriving DecidableEq, Repr, Inhabited

/-- Drive Control (01). -/
structure DriveControl where
  state      : DriveState
  /-- the RUN output (R2) -/
  runOutput  : Bool
  /-- the DIRECTION output (R5) -/
  direction  : Direction
  rest       : RestTimer
  /-- the reversal dwell timer, tenths (R6) -/
  dwellTimer : Option Nat
  /-- the lamp line (R22) -/
  lamp       : Bool
  /-- the place in the blink group: even while a blink is on, odd while it is off (R22) -/
  blinkPhase : Nat
  /-- tenths to the next switching of the blink group (R22) -/
  blinkTimer : Option Nat
  deriving DecidableEq, Repr, Inhabited

/-- The level set in force (R23): stop P, start S, resume Rm, hold H and halt X, in hundredths of a degree. -/
structure LevelSet where
  stop   : Int
  start  : Int
  resume : Int
  hold   : Int
  halt   : Int
  deriving DecidableEq, Repr, Inhabited

/-- The Bend Governor (R23). -/
structure Governor where
  /-- the bends in the window, oldest first (R24) -/
  window     : List Int
  /-- the lead while it is known (R27) -/
  lead       : Option Int
  runRequest : Bool
  lagMark    : Bool
  levels     : LevelSet
  /-- the window size K -/
  size       : Nat
  deriving DecidableEq, Repr, Inhabited

/-- The exchange states of the Sensor Port (R41). -/
inductive ExchangeState where
  | stopped
  | configRead
  | resting
  | readyWait
  | shifting
  deriving DecidableEq, Repr, Inhabited

/-- The sensor port clock line (R41, R45): low, or clocking a word at 100 kHz. -/
inductive SensorClock where
  | low
  | running
  deriving DecidableEq, Repr, Inhabited

/-- The Sensor Port (R41). -/
structure SensorPort where
  exchange            : ExchangeState
  /-- tenths -/
  sampleTimer         : Option Nat
  pendingExpiry       : Bool
  /-- milliseconds -/
  readyTimer          : Option Nat
  receivedWord        : Option (BitVec 24)
  consecutiveFailures : BitVec 8
  failureTotal        : BitVec 16
  faultMark           : Bool
  select0             : Bool
  select1             : Bool
  clock               : SensorClock
  /-- the bytes being clocked out on data out, in the order sent (R45, R169) -/
  dataOut             : List Byte
  /-- the raw level of the ready input, as last read -/
  readyPin            : Bool
  deriving DecidableEq, Repr, Inhabited

/-- The Stride Monitor (Table 4-1). -/
structure StrideMonitor where
  /-- the raw level of the wheel pulse input -/
  wheelHigh         : Bool
  /-- the pulse filter: ASSERTED or RELEASED -/
  filterAsserted    : Bool
  /-- milliseconds the input is known to have held its level -/
  heldFor           : Nat
  strideCount       : BitVec 16
  /-- the contactor view: ON or OFF -/
  contactorOn       : Bool
  /-- tenths -/
  stallTimer        : Option Nat
  segmentPulses     : Nat
  consecutiveStalls : Nat
  stallMark         : Bool
  /-- tenths -/
  retryPause        : Option Nat
  /-- tenths -/
  coastWindow       : Option Nat
  coastCount        : Nat
  creepCount        : BitVec 8
  runTime           : BitVec 24
  stallEvents       : BitVec 8
  creepPulses       : BitVec 16
  deriving DecidableEq, Repr, Inhabited

/-- A set of claim reasons (R83). -/
structure ReasonSet where
  lag    : Bool
  stall  : Bool
  sensor : Bool
  deriving DecidableEq, Repr, Inhabited

/-- A hold record (Table 5-1). Its source is the place it stands at in the hold set. -/
structure HoldRecord where
  reasons : ReasonSet
  reach   : Byte
  order   : Byte
  placed  : BitVec 32
  deriving DecidableEq, Repr, Inhabited

/-- The Hold Table (R72): the hold set by source, and its two counts. -/
structure HoldTable where
  records       : Vector (Option HoldRecord) 32
  unappliedHold : BitVec 8
  unmatchedFree : BitVec 8
  deriving DecidableEq, Repr, Inhabited

/-- The Claim Unit (R83). -/
structure ClaimUnit where
  reasons   : ReasonSet
  reach     : Nat
  announced : Bool
  deriving DecidableEq, Repr, Inhabited

/-- The Pace Timer (R92); times in tenths. -/
structure PaceTimer where
  running     : Bool
  position    : Nat
  pace        : Nat
  onLength    : Nat
  pendingPace : Option Nat
  request     : Bool
  deriving DecidableEq, Repr, Inhabited

/-- The presence of a roster record (Table 7-4). -/
inductive Presence where
  | absent
  | current
  | stale
  | lost
  deriving DecidableEq, Repr, Inhabited

/-- The reported fields of a roster record (Table 7-1), as carried by the last STATUS. -/
structure Reported where
  state  : Byte
  /-- the reported order number; `none` while the source reports its order unset (R111) -/
  order  : Option Byte
  ready  : Bool
  cause  : Byte
  origin : Byte
  deriving DecidableEq, Repr, Inhabited

/-- A roster record (Table 7-1). -/
structure RosterRecord where
  presence : Presence
  expected : Bool
  age      : BitVec 16
  lastSeq  : Option Byte
  missed   : BitVec 8
  accepted : BitVec 16
  reported : Option Reported
  deriving DecidableEq, Repr, Inhabited

/-- The Span Roster (R102). -/
structure Roster where
  records          : Vector RosterRecord 32
  duplicateTotal   : BitVec 16
  strangerTotal    : BitVec 16
  notAcceptedTotal : BitVec 16
  deriving DecidableEq, Repr, Inhabited

/-- The first failing condition of the census (R130). -/
inductive Blocker where
  | loop
  | ownReadiness
  | position (p : Position)
  deriving DecidableEq, Repr, Inhabited

/-- The Order Unit (R118). -/
structure OrderUnit where
  unset       : Bool
  number      : Byte
  action      : Action
  direction   : Direction
  pace        : Nat
  /-- tenths -/
  musterTimer : Option Nat
  /-- the census state: COUNTING or INACTIVE -/
  counting    : Bool
  blocker     : Option Blocker
  refused     : BitVec 8
  deriving DecidableEq, Repr, Inhabited

/-- The later-causes set (R141): the causes Table 9-2 lets it take. -/
structure LaterCauses where
  creep     : Bool
  peerLost  : Bool
  panelLost : Bool
  loopOpen  : Bool
  seized    : Bool
  restart   : Bool
  deriving DecidableEq, Repr, Inhabited

/-- The halt record (Table 9-1); empty while its cause is `none`. -/
structure HaltRecord where
  cause       : Option HaltCause
  origin      : Option Position
  remoteCause : Option HaltCause
  later       : LaterCauses
  order       : Byte
  timeTag     : BitVec 32
  lead        : Int
  strides     : BitVec 16
  priorState  : DriveState
  deriving DecidableEq, Repr, Inhabited

/-- The Halt Unit (R134). -/
structure HaltUnit where
  latched      : Bool
  record       : HaltRecord
  /-- the loop switch: CLOSED or OPEN -/
  loopClosed   : Bool
  /-- the raw level of the loop sense input: current present -/
  rawSense     : Bool
  /-- the settled sense: PRESENT or ABSENT -/
  settledSense : Bool
  /-- tenths for which the raw level is known to have differed from the settled sense -/
  differsFor   : Nat
  deriving DecidableEq, Repr, Inhabited

/-- The states of a receiver (R147). -/
inductive ReceiverState where
  | idle
  | collecting
  | discarding
  deriving DecidableEq, Repr, Inhabited

/-- The per-line counters (Table 10-4). -/
structure LineCounters where
  good    : BitVec 16
  crcBad  : BitVec 16
  framing : BitVec 16
  format  : BitVec 16
  noisy   : BitVec 16
  clashes : BitVec 16
  seizes  : BitVec 16
  deriving DecidableEq, Repr, Inhabited

/-- What the interface holds for each line (Table 10-1). -/
structure LineState where
  receiver    : ReceiverState
  /-- the characters of the frame in collection, lead character first -/
  characters  : List Byte
  /-- the frame in collection is the station's own readback (R105) -/
  ownFrame    : Bool
  /-- character times for which the line is known to have been idle (R149) -/
  idleTime    : Nat
  alive       : Bool
  /-- tenths -/
  quietTimer  : Option Nat
  /-- seize detection: ARMED or SPENT -/
  armed       : Bool
  /-- length of the dominant run, bit times -/
  dominantRun : Nat
  counters    : LineCounters
  deriving DecidableEq, Repr, Inhabited

/-- A claim frame in the claim slot (R84, R85). -/
inductive ClaimFrame where
  | hold
  | free
  deriving DecidableEq, Repr, Inhabited

/-- An ANSWER in its slot: the item and argument as received, and the remaining discard time in tenths (R160, R165). -/
structure AnswerRequest where
  item     : Byte
  argument : Byte
  discard  : Nat
  deriving DecidableEq, Repr, Inhabited

/-- What kind of frame is on the line. -/
inductive FrameKind where
  | claim (frame : ClaimFrame)
  | answer (request : AnswerRequest)
  | status
  deriving DecidableEq, Repr, Inhabited

/-- A frame being sent (R153): its kind, the sequence and order numbers of its header, and all its characters. -/
structure SentFrame where
  kind       : FrameKind
  seq        : Byte
  order      : Byte
  characters : List Byte
  deriving DecidableEq, Repr, Inhabited

/-- The transmitter (R147). -/
inductive Transmitter where
  | released
  | sending (frame : SentFrame)
  | seizing
  deriving DecidableEq, Repr, Inhabited

/-- The line rates, in bit/s (Table 12-1, byte 2). -/
inductive LineRate where
  | bps9600
  | bps19200
  | bps38400
  deriving DecidableEq, Repr, Inhabited

/-- The Span Line Interface (Table 10-1). -/
structure SpanLine where
  /-- the rate in force, at which the receivers collect and frames are sent (R147, R171, R172) -/
  lineRate           : LineRate
  lineA              : LineState
  lineB              : LineState
  sendLine           : Line
  transmitter        : Transmitter
  yieldBias          : Bool
  claimSlot          : Option ClaimFrame
  answerSlot         : Option AnswerRequest
  statusSlot         : Bool
  claimClashes       : Nat
  answerClashes      : Nat
  statusClashes      : Nat
  consecutiveClashes : Nat
  /-- tenths -/
  reportTimer        : Option Nat
  answersDiscarded   : BitVec 8
  /-- a change of send line that waits for the transmission to end (R155) -/
  changeWaiting      : Bool
  /-- a clash has been taken and no attempt has begun since: the access gap is measured from the clash (R154) -/
  gapFromClash       : Bool
  deriving DecidableEq, Repr, Inhabited

/-- The loader states (R169). -/
inductive LoaderState where
  | reading
  | checking
  | passed
  | failed
  deriving DecidableEq, Repr, Inhabited

/-- The configuration record, field by field (Table 12-1). -/
structure ConfigRecord where
  layoutVersion   : Byte
  towers          : Byte
  lineRateCode    : Byte
  alternateLine   : Byte
  reportCode      : Byte
  lostLimit       : Byte
  levelTable      : Byte
  startLevelD     : BitVec 16
  holdLevelD      : BitVec 16
  haltLevelD      : BitVec 16
  hysteresisCode  : Byte
  windowCode      : Byte
  samplePeriod    : Byte
  sensorMode      : Byte
  signature       : Byte
  command         : Byte
  readyPolarity   : Byte
  readyTimeout    : Byte
  stallMode       : Byte
  stallTime       : Byte
  retryPause      : Byte
  retryLimit      : Byte
  coastAllowance  : Byte
  creepLimit      : Byte
  pacePeriod      : Byte
  musterTime      : Byte
  reversalDwell   : Byte
  deriving DecidableEq, Repr, Inhabited

/-- The Configuration Loader (R169). -/
structure Loader where
  state        : LoaderState
  own          : Position
  config       : ConfigRecord
  crc          : BitVec 16
  offlineCause : Option OfflineCause
  deriving DecidableEq, Repr, Inhabited

/-- One DX4120, and the queue of the commands that wait for it. -/
structure State where
  /-- the waiting commands, the next one first -/
  pending   : List Instr
  resets    : ResetLines
  /-- tenths of a second since the end of the last reset (00 section 6.3) -/
  localTime : BitVec 32
  drive     : DriveControl
  governor  : Governor
  sensor    : SensorPort
  stride    : StrideMonitor
  holds     : HoldTable
  claim     : ClaimUnit
  pace      : PaceTimer
  roster    : Roster
  orders    : OrderUnit
  halt      : HaltUnit
  line      : SpanLine
  loader    : Loader
  /-- the model's own counter of free orders taken (log 9) -/
  choices   : Nat
  deriving DecidableEq, Repr, Inhabited

/-- The reasons a step could stop with a fault. The spec names no command that stops the part: halts and OFFLINE are
states it goes on in. -/
inductive Fault where
  /-- Raised by nothing: the interface needs a type of faults and the spec gives none. Safe. -/
  | neverRaised
  deriving DecidableEq, Repr

/-- The reasons a step could refuse a command. -/
inductive Refusal where
  /-- A command whose meaning has not been written yet, by its mnemonic. Raised by no command now. Safe. -/
  | notModelled (mnemonic : String)
  deriving DecidableEq, Repr

/-! ### Reset values, block by block -/

/-- Drive Control during a reset (R1 to R6, R22, R168); the rest timer's value there is the model's (log 2). -/
def DriveControl.reset : DriveControl :=
  { state := .offline, runOutput := false, direction := .forward, rest := .resting 10, dwellTimer := none,
    lamp := false, blinkPhase := 0, blinkTimer := none }

/-- The governor during a reset (R23); levels and size are loaded when the checks pass (log 2). -/
def Governor.reset : Governor :=
  { window := [], lead := none, runRequest := false, lagMark := false, levels := ⟨0, 0, 0, 0, 0⟩, size := 0 }

/-- The Sensor Port during a reset (R41). -/
def SensorPort.reset : SensorPort :=
  { exchange := .stopped, sampleTimer := none, pendingExpiry := false, readyTimer := none, receivedWord := none,
    consecutiveFailures := 0, failureTotal := 0, faultMark := false, select0 := false, select1 := false,
    clock := .low, dataOut := [], readyPin := false }

/-- The Stride Monitor after a power-on reset (Table 4-1). -/
def StrideMonitor.reset : StrideMonitor :=
  { wheelHigh := false, filterAsserted := true, heldFor := 0, strideCount := 0, contactorOn := false,
    stallTimer := none, segmentPulses := 0, consecutiveStalls := 0, stallMark := false, retryPause := none,
    coastWindow := none, coastCount := 0, creepCount := 0, runTime := 0, stallEvents := 0, creepPulses := 0 }

/-- The empty reason set. -/
def ReasonSet.empty : ReasonSet := { lag := false, stall := false, sensor := false }

/-- The Hold Table after a reset (R72). -/
def HoldTable.reset : HoldTable :=
  { records := Vector.replicate 32 none, unappliedHold := 0, unmatchedFree := 0 }

/-- The Claim Unit after a reset (R83). -/
def ClaimUnit.reset : ClaimUnit := { reasons := ReasonSet.empty, reach := 0, announced := false }

/-- The Pace Timer after a reset (R92). -/
def PaceTimer.reset : PaceTimer :=
  { running := false, position := 0, pace := 0, onLength := 0, pendingPace := none, request := false }

/-- A roster record after a reset (R102); the expected field is set when the checks pass (log 2). -/
def RosterRecord.reset : RosterRecord :=
  { presence := .absent, expected := false, age := 0, lastSeq := none, missed := 0, accepted := 0, reported := none }

/-- The roster after a reset (R102). -/
def Roster.reset : Roster :=
  { records := Vector.replicate 32 RosterRecord.reset, duplicateTotal := 0, strangerTotal := 0,
    notAcceptedTotal := 0 }

/-- The Order Unit after a reset (R118). -/
def OrderUnit.reset : OrderUnit :=
  { unset := true, number := 0, action := .stop, direction := .forward, pace := 0, musterTimer := none,
    counting := false, blocker := none, refused := 0 }

/-- The empty later-causes set. -/
def LaterCauses.empty : LaterCauses :=
  { creep := false, peerLost := false, panelLost := false, loopOpen := false, seized := false, restart := false }

/-- The empty halt record (R134). -/
def HaltRecord.empty : HaltRecord :=
  { cause := none, origin := none, remoteCause := none, later := LaterCauses.empty, order := 0, timeTag := 0,
    lead := 0, strides := 0, priorState := .offline }

/-- The Halt Unit after a power-on reset (R134); the raw level of the input is the model's (log 2). -/
def HaltUnit.reset : HaltUnit :=
  { latched := false, record := HaltRecord.empty, loopClosed := false, rawSense := false, settledSense := false,
    differsFor := 0 }

/-- The counters of one line after a reset (R161). -/
def LineCounters.reset : LineCounters :=
  { good := 0, crcBad := 0, framing := 0, format := 0, noisy := 0, clashes := 0, seizes := 0 }

/-- One line after a reset (Table 10-1). -/
def LineState.reset : LineState :=
  { receiver := .idle, characters := [], ownFrame := false, idleTime := 0, alive := false, quietTimer := none,
    armed := true, dominantRun := 0, counters := LineCounters.reset }

/-- The Span Line Interface after a reset (Table 10-1); the line rate there is the model's (log 2). -/
def SpanLine.reset : SpanLine :=
  { lineRate := .bps19200, lineA := LineState.reset, lineB := LineState.reset, sendLine := .a, transmitter := .released,
    yieldBias := false, claimSlot := none, answerSlot := none, statusSlot := false, claimClashes := 0,
    answerClashes := 0, statusClashes := 0, consecutiveClashes := 0, reportTimer := none, answersDiscarded := 0,
    changeWaiting := false, gapFromClash := false }

/-- The all-zero configuration record (R169). -/
def ConfigRecord.zero : ConfigRecord :=
  { layoutVersion := 0, towers := 0, lineRateCode := 0, alternateLine := 0, reportCode := 0, lostLimit := 0,
    levelTable := 0, startLevelD := 0, holdLevelD := 0, haltLevelD := 0, hysteresisCode := 0, windowCode := 0,
    samplePeriod := 0, sensorMode := 0, signature := 0, command := 0, readyPolarity := 0, readyTimeout := 0,
    stallMode := 0, stallTime := 0, retryPause := 0, retryLimit := 0, coastAllowance := 0, creepLimit := 0,
    pacePeriod := 0, musterTime := 0, reversalDwell := 0 }

/-- The loader during a reset (R169). -/
def Loader.reset : Loader :=
  { state := .reading, own := 0, config := ConfigRecord.zero, crc := 0, offlineCause := none }

/-- The machine in its power-on reset (R168): every block at its reset values, no command waiting. The supply is up and
the reset has not ended; POWER_ON_RESET_END ends it (log 2). -/
def State.reset : State :=
  { pending := [], resets := { powerOn := true, pin := false }, localTime := 0, drive := DriveControl.reset,
    governor := Governor.reset, sensor := SensorPort.reset, stride := StrideMonitor.reset, holds := HoldTable.reset,
    claim := ClaimUnit.reset, pace := PaceTimer.reset, roster := Roster.reset, orders := OrderUnit.reset,
    halt := HaltUnit.reset, line := SpanLine.reset, loader := Loader.reset, choices := 0 }

end Sys2Proof.Machine
end

