-- ==== Sys2Proof/Machine/Operands.lean ====
section
/-! DEFINITION. Reading and writing the operands of frames and records: codes, modular numbers, saturating counts, the
voted character, the CRC, byte order, and the configuration record. -/
namespace Sys2Proof.Machine

/-! ### Counts and numbers -/

/-- One more, saturating at the largest value of the width (00 section 6.5). -/
def satInc {w : Nat} (x : BitVec w) : BitVec w := if x = BitVec.allOnes w then x else x + 1

/-- A sum, saturating at the largest value of the width (R109: the missed count takes a gap). -/
def satAdd {w : Nat} (x : BitVec w) (n : Nat) : BitVec w :=
  if x.toNat + n < 2 ^ w then BitVec.ofNat w (x.toNat + n) else BitVec.allOnes w

/-- The least of a number and the largest value of a width, in that width (answers that saturate a longer count). -/
def satOfNat (w n : Nat) : BitVec w := if n < 2 ^ w then BitVec.ofNat w n else BitVec.allOnes w

/-- `new` is ahead of `current` (00 section 6.5): the difference modulo 256 lies in 1 to 127. -/
def ahead (new current : Byte) : Bool := decide (1 ≤ (new - current).toNat ∧ (new - current).toNat ≤ 127)

/-- The gap of R109: frames not received between the last sequence and this one. -/
def sequenceGap (seq last : Byte) : Nat := (seq - last - 1).toNat

/-- One tenth less of a timer, not below zero; a stopped timer stays stopped. -/
def countDown (t : Option Nat) : Option Nat := t.map (fun n => n - 1)

/-! ### Byte order (00 section 6.6): high byte first -/

def highByte (x : BitVec 16) : Byte := x.extractLsb' 8 8
def lowByte (x : BitVec 16) : Byte := x.extractLsb' 0 8

/-- Two bytes, high byte first. -/
def bytes16 (x : BitVec 16) : List Byte := [highByte x, lowByte x]

/-- A lead as the two's complement field of frames and answers (Table 11-3). -/
def leadField (lead : Int) : BitVec 16 := BitVec.ofInt 16 lead

/-! ### The CRC (Chapter 11, after Table 11-4) -/

/-- One bit of the CRC with polynomial 0x1021. -/
def crcShift (crc : BitVec 16) : BitVec 16 :=
  if crc.msb then (crc <<< 1) ^^^ 0x1021#16 else crc <<< 1

/-- One byte of the CRC, fed most significant bit first. -/
def crcByte (crc : BitVec 16) (b : Byte) : BitVec 16 :=
  Nat.repeat crcShift 8 (crc ^^^ (b.setWidth 16 <<< 8))

/-- The CRC of a run of bytes: initial value 0xFFFF, no final inversion. -/
def crcOf (bytes : List Byte) : BitVec 16 := bytes.foldl crcByte 0xFFFF#16

/-! ### Codes (Table 11-4) -/

def DriveState.code : DriveState → Byte
  | .offline => 0
  | .idle => 1
  | .dwell => 2
  | .muster => 3
  | .wait => 4
  | .run => 5
  | .held => 6
  | .stalled => 7
  | .halted => 8

/-- The following states (00 section 5). -/
def DriveState.isFollowing : DriveState → Bool
  | .wait | .run | .held | .stalled => true
  | .offline | .idle | .dwell | .muster | .halted => false

/-- The underway states (00 section 5). -/
def DriveState.isUnderway : DriveState → Bool
  | .dwell | .muster | .wait | .run | .held | .stalled => true
  | .offline | .idle | .halted => false

def HaltCause.code : HaltCause → Byte
  | .misalign => 1
  | .stall => 2
  | .creep => 3
  | .sensor => 4
  | .peerLost => 5
  | .panelLost => 6
  | .musterTimeout => 7
  | .loopOpen => 8
  | .seized => 9
  | .restart => 10

/-- A halt cause field: `some none` for code 0, `none` for a code outside Table 11-4. -/
def haltCauseOfCode (code : Byte) : Option (Option HaltCause) :=
  match code.toNat with
  | 0 => some none
  | 1 => some (some .misalign)
  | 2 => some (some .stall)
  | 3 => some (some .creep)
  | 4 => some (some .sensor)
  | 5 => some (some .peerLost)
  | 6 => some (some .panelLost)
  | 7 => some (some .musterTimeout)
  | 8 => some (some .loopOpen)
  | 9 => some (some .seized)
  | 10 => some (some .restart)
  | _ => none

/-- The code of a halt cause field, 0 for none. -/
def causeField (cause : Option HaltCause) : Byte :=
  match cause with
  | none => 0
  | some c => c.code

/-- The code of a halt origin field, 0xFF for none (Table 11-3). -/
def originField (origin : Option Position) : Byte :=
  match origin with
  | none => 0xFF
  | some p => p.setWidth 8

def Direction.code : Direction → Byte
  | .forward => 0
  | .reverse => 1

def directionOfCode (code : Byte) : Option Direction :=
  match code.toNat with
  | 0 => some .forward
  | 1 => some .reverse
  | _ => none

/-- The direction sign (R5): +1 for FORWARD, -1 for REVERSE. -/
def Direction.sign : Direction → Int
  | .forward => 1
  | .reverse => -1

def Action.code : Action → Byte
  | .stop => 0
  | .run => 1
  | .clear => 2

def actionOfCode (code : Byte) : Option Action :=
  match code.toNat with
  | 0 => some .stop
  | 1 => some .run
  | 2 => some .clear
  | _ => none

/-- A pace field above 100 is taken as 100 (R94, R120, R121). -/
def paceOfField (pace : Byte) : Nat := min pace.toNat 100

def Presence.code : Presence → Byte
  | .absent => 0
  | .current => 1
  | .stale => 2
  | .lost => 3

/-! ### Claim reasons (Table 11-3, byte 9) -/

/-- The reasons a frame names; bits other than the three are ignored (R76, R164). -/
def ReasonSet.ofByte (b : Byte) : ReasonSet :=
  { lag := b.getLsbD 0, stall := b.getLsbD 1, sensor := b.getLsbD 2 }

def ReasonSet.toByte (r : ReasonSet) : Byte :=
  (if r.lag then 1 else 0) ||| (if r.stall then 2 else 0) ||| (if r.sensor then 4 else 0)

def ReasonSet.isEmpty (r : ReasonSet) : Bool := !(r.lag || r.stall || r.sensor)

/-- The set with one reason present or absent. -/
def ReasonSet.put (r : ReasonSet) (reason : ClaimReason) (present : Bool) : ReasonSet :=
  match reason with
  | .lag => { r with lag := present }
  | .stall => { r with stall := present }
  | .sensor => { r with sensor := present }

/-- A claim from `source` with `reach` covers `position` (R73). -/
def covers (source : Position) (reach : Nat) (position : Position) : Bool :=
  decide (source.toNat < position.toNat ∧ position.toNat ≤ source.toNat + reach)

/-! ### The voted character (R148) -/

/-- The value of each bit: the majority of its three samples. -/
def voted (c : CharacterSamples) : BitVec 10 :=
  (c.seventh &&& c.eighth) ||| (c.eighth &&& c.ninth) ||| (c.seventh &&& c.ninth)

/-- Whether the three samples of some bit disagree. -/
def isNoisy (c : CharacterSamples) : Bool := decide (¬(c.seventh = c.eighth ∧ c.eighth = c.ninth))

/-- The start bit's vote is dominant (0); otherwise the change was a glitch. -/
def startsCharacter (c : CharacterSamples) : Bool := !(voted c).getLsbD 0

/-- The stop bit's vote is dominant: a framing error. -/
def stopIsDominant (c : CharacterSamples) : Bool := !(voted c).getLsbD 9

/-- The eight data bits, the first sent the least significant. -/
def characterValue (c : CharacterSamples) : Byte := (voted c).extractLsb' 1 8

/-! ### The frame checks of Table 10-2 -/

/-- What a failed check raises (Table 10-2). -/
inductive FrameFailure where
  | framing
  | format
  | crcBad
  deriving DecidableEq, Repr

/-- The body length of each kind code (Table 11-2); `none` for a bad kind. -/
def bodyLength (kind : Nat) : Option Nat :=
  match kind with
  | 0 => some 12
  | 1 => some 3
  | 2 => some 2
  | 3 => some 0
  | 4 => some 3
  | 5 => some 10
  | _ => none

/-- The first failing check of Table 10-2 on the characters of a frame, lead character first; `none` when it is good. -/
def checkFrame (characters : List Byte) : Option FrameFailure :=
  if characters.head? ≠ some 0xB4 then some .framing
  else if characters.length < 6 then some .format
  else
    let inner := (characters.drop 1).take (characters.length - 3)
    if characters.drop (characters.length - 2) ≠ bytes16 (crcOf inner) then some .crcBad
    else
      match bodyLength ((inner.getD 0 0).toNat / 32) with
      | none => some .format
      | some n => if characters.length = n + 6 then none else some .format

/-- A whole frame: the lead character, header, body and CRC (Table 11-1). -/
def assembleFrame (kind : Nat) (source : Position) (seq order : Byte) (body : List Byte) : List Byte :=
  let inner := (BitVec.ofNat 3 kind ++ source : Byte) :: seq :: order :: body
  0xB4 :: inner ++ bytes16 (crcOf inner)

/-! ### The configuration record (Table 12-1) -/

/-- The record read from bytes 0 to 29; a byte that the image does not hold reads as 0. -/
def ConfigRecord.ofBytes (image : List Byte) : ConfigRecord :=
  let at_ (i : Nat) : Byte := image.getD i 0
  { layoutVersion := at_ 0, towers := at_ 1, lineRateCode := at_ 2, alternateLine := at_ 3, reportCode := at_ 4,
    lostLimit := at_ 5, levelTable := at_ 6, startLevelD := at_ 7 ++ at_ 8, holdLevelD := at_ 9 ++ at_ 10,
    haltLevelD := at_ 11 ++ at_ 12, hysteresisCode := at_ 13, windowCode := at_ 14, samplePeriod := at_ 15,
    sensorMode := at_ 16, signature := at_ 17, command := at_ 18, readyPolarity := at_ 19, readyTimeout := at_ 20,
    stallMode := at_ 21, stallTime := at_ 22, retryPause := at_ 23, retryLimit := at_ 24, coastAllowance := at_ 25,
    creepLimit := at_ 26, pacePeriod := at_ 27, musterTime := at_ 28, reversalDwell := at_ 29 }

/-- The 30 bytes of the record, the bytes its CRC is taken over. -/
def ConfigRecord.toBytes (c : ConfigRecord) : List Byte :=
  [c.layoutVersion, c.towers, c.lineRateCode, c.alternateLine, c.reportCode, c.lostLimit, c.levelTable]
    ++ bytes16 c.startLevelD ++ bytes16 c.holdLevelD ++ bytes16 c.haltLevelD
    ++ [c.hysteresisCode, c.windowCode, c.samplePeriod, c.sensorMode, c.signature, c.command, c.readyPolarity,
        c.readyTimeout, c.stallMode, c.stallTime, c.retryPause, c.retryLimit, c.coastAllowance, c.creepLimit,
        c.pacePeriod, c.musterTime, c.reversalDwell]

/-- The CRC field: bytes 30 and 31, high byte first (R169). -/
def crcFieldOf (image : List Byte) : BitVec 16 := image.getD 30 0 ++ image.getD 31 0

/-- The report period in tenths (Table 12-1, byte 4). -/
def ConfigRecord.reportPeriod (c : ConfigRecord) : Nat := 10 + 5 * c.reportCode.toNat

/-- The line rate of a line rate code (Table 12-1, byte 2). -/
def ConfigRecord.lineRate (c : ConfigRecord) : LineRate :=
  match c.lineRateCode.toNat with
  | 0 => .bps9600
  | 1 => .bps19200
  | _ => .bps38400

/-- The stale age in tenths: three report periods (07, section 7.3). -/
def ConfigRecord.staleAge (c : ConfigRecord) : Nat := 3 * c.reportPeriod

/-- The lost limit in tenths; also the line quiet time (R151). -/
def ConfigRecord.lostTenths (c : ConfigRecord) : Nat := 10 * c.lostLimit.toNat

/-- The window size K of a window code (Table 2-1). -/
def windowSize (code : Byte) : Nat :=
  match code.toNat with
  | 0 => 1
  | 1 => 2
  | 2 => 4
  | _ => 8

/-- The hysteresis value h of a code (Table 2-4). -/
def hysteresisValue (code : Byte) : Int :=
  match code.toNat with
  | 0 => 5
  | 1 => 10
  | 2 => 15
  | 3 => 20
  | 4 => 25
  | 5 => 30
  | 6 => 40
  | 7 => 50
  | 8 => 60
  | 9 => 70
  | 10 => 80
  | 11 => 90
  | 12 => 100
  | 13 => 120
  | 14 => 140
  | _ => 160

/-- The level set a record selects (R29, R30): tables A, B and C are fixed, table D is built from the D fields. -/
def ConfigRecord.levelSet (c : ConfigRecord) : LevelSet :=
  match c.levelTable.toNat with
  | 0 => { stop := 10, start := 40, resume := 80, hold := 150, halt := 400 }
  | 1 => { stop := 20, start := 60, resume := 120, hold := 200, halt := 500 }
  | 2 => { stop := 30, start := 100, resume := 180, hold := 300, halt := 700 }
  | _ =>
    let h := hysteresisValue c.hysteresisCode
    { stop := c.startLevelD.toNat - h, start := c.startLevelD.toNat, resume := c.holdLevelD.toNat - h,
      hold := c.holdLevelD.toNat, halt := c.haltLevelD.toNat }

/-- A level set is in order (R31): 0 ≤ P < S < Rm < H < X ≤ 1200. -/
def LevelSet.inOrder (l : LevelSet) : Bool :=
  decide (0 ≤ l.stop ∧ l.stop < l.start ∧ l.start < l.resume ∧ l.resume < l.hold ∧ l.hold < l.halt ∧ l.halt ≤ 1200)

/-- A byte lies in a range, ends included. -/
def inRange (b : Byte) (low high : Nat) : Bool := decide (low ≤ b.toNat ∧ b.toNat ≤ high)

/-- Check 3 of Table 12-2: every field except bytes 7 to 13 (and the layout version, check 2) lies in its range. -/
def ConfigRecord.fieldsInRange (c : ConfigRecord) : Bool :=
  inRange c.towers 2 31 && inRange c.lineRateCode 0 2 && inRange c.alternateLine 0 1 && inRange c.reportCode 0 8
    && inRange c.lostLimit 5 30 && inRange c.levelTable 0 3 && inRange c.windowCode 0 3
    && inRange c.samplePeriod 1 10 && inRange c.sensorMode 0 2 && inRange c.signature 1 0xFE
    && inRange c.readyPolarity 0 1 && inRange c.readyTimeout 10 100 && inRange c.stallMode 0 2
    && inRange c.stallTime 5 120 && inRange c.retryPause 5 60 && inRange c.retryLimit 1 7
    && inRange c.coastAllowance 0 7 && inRange c.creepLimit 1 15 && inRange c.pacePeriod 30 120
    && inRange c.musterTime 10 60 && inRange c.reversalDwell 2 30

/-- The configuration checks in the order of Table 12-2: the cause of the first that fails, or none. -/
def configFailure (c : ConfigRecord) (crc : BitVec 16) (own : Position) : Option OfflineCause :=
  if crcOf c.toBytes ≠ crc then some .configCheck
  else if c.layoutVersion ≠ 2 then some .configCheck
  else if !c.fieldsInRange then some .configRange
  else if c.levelTable = 3 ∧ (15 < c.hysteresisCode.toNat ∨ c.levelSet.inOrder = false) then some .configRange
  else if c.lostTenths ≤ c.staleAge then some .configRange
  else if own.toNat < 1 ∨ c.towers.toNat < own.toNat then some .positionRange
  else none

/-- The sensor modes (Table 3-1, byte 16). -/
inductive SensorMode where
  | retry
  | halt
  | skip
  deriving DecidableEq, Repr

def ConfigRecord.sensing (c : ConfigRecord) : SensorMode :=
  match c.sensorMode.toNat with
  | 0 => .retry
  | 1 => .halt
  | _ => .skip

/-- The stall modes (Table 4-2, byte 21). -/
inductive StallMode where
  | off
  | retry
  | halt
  deriving DecidableEq, Repr

def ConfigRecord.stalling (c : ConfigRecord) : StallMode :=
  match c.stallMode.toNat with
  | 0 => .off
  | 1 => .retry
  | _ => .halt

/-- The ready input means ready (Table 3-1): asserted high for polarity 0, low for polarity 1. -/
def ConfigRecord.readyAsserted (c : ConfigRecord) (level : Bool) : Bool :=
  if c.readyPolarity = 0 then level else !level

/-- The other span line. -/
def otherLine : Line → Line
  | .a => .b
  | .b => .a

end Sys2Proof.Machine
end

