-- ==== Sys2Proof/Machine/Flags.lean ====
section
/-! DEFINITION. The flag bytes of frames and answers: STATUS flags, the later-causes byte, the HALT_POINT status bits
and the LINE_COUNTS line byte. -/
namespace Sys2Proof.Machine

/-- One bit of a flag byte. -/
def flagBit (n : Nat) (b : Bool) : Byte := if b then 1#8 <<< n else 0

/-- The flags byte of a STATUS body (Table 11-3). -/
def statusFlags (unset loopSensed leadKnown ready pacer : Bool) : Byte :=
  flagBit 0 unset ||| flagBit 1 loopSensed ||| flagBit 2 leadKnown ||| flagBit 3 ready ||| flagBit 4 pacer

/-- The order-unset flag of a received STATUS. -/
def orderUnsetFlag (b : StatusBody) : Bool := b.flags.getLsbD 0

/-- The ready flag of a received STATUS. -/
def readyFlag (b : StatusBody) : Bool := b.flags.getLsbD 3

/-- The later-causes byte of HALT_RECORD (R166). -/
def LaterCauses.toByte (l : LaterCauses) : Byte :=
  flagBit 0 l.creep ||| flagBit 1 l.peerLost ||| flagBit 2 l.panelLost ||| flagBit 3 l.loopOpen
    ||| flagBit 4 l.seized ||| flagBit 5 l.restart

/-- The status bits byte of HALT_POINT (R166). -/
def HaltUnit.statusBits (h : HaltUnit) : Byte :=
  flagBit 0 h.latched ||| flagBit 1 h.loopClosed ||| flagBit 2 h.settledSense

/-- The line byte of LINE_COUNTS (R166). -/
def SpanLine.lineByte (x : SpanLine) : Byte :=
  flagBit 0 (decide (x.sendLine = .b)) ||| flagBit 1 x.lineA.alive ||| flagBit 2 x.lineB.alive

end Sys2Proof.Machine
end

