-- ==== Sys2Proof/Machine/Ops.lean ====
section
/-! DEFINITION. The shared operations: block updates, views of the state, the transmit queue, the outward claim, the
contactor, the transition of the drive state (R11), the latching of a halt (R139), the run decision (R7, R8), the
census (R128 to R131), a change of the lead (R32 to R39), the hold set, and the adoption of an order (R122). -/
namespace Sys2Proof.Machine

/-! ### Block updates -/

def State.setResets (s : State) (x : ResetLines) : State := { s with resets := x }
def State.setDrive (s : State) (x : DriveControl) : State := { s with drive := x }
def State.setGovernor (s : State) (x : Governor) : State := { s with governor := x }
def State.setSensor (s : State) (x : SensorPort) : State := { s with sensor := x }
def State.setStride (s : State) (x : StrideMonitor) : State := { s with stride := x }
def State.setHolds (s : State) (x : HoldTable) : State := { s with holds := x }
def State.setClaim (s : State) (x : ClaimUnit) : State := { s with claim := x }
def State.setPace (s : State) (x : PaceTimer) : State := { s with pace := x }
def State.setRoster (s : State) (x : Roster) : State := { s with roster := x }
def State.setOrders (s : State) (x : OrderUnit) : State := { s with orders := x }
def State.setHalt (s : State) (x : HaltUnit) : State := { s with halt := x }
def State.setLine (s : State) (x : SpanLine) : State := { s with line := x }
def State.setLoader (s : State) (x : Loader) : State := { s with loader := x }
def State.setLocalTime (s : State) (x : BitVec 32) : State := { s with localTime := x }
def State.setChoices (s : State) (x : Nat) : State := { s with choices := x }
def State.setPending (s : State) (x : List Instr) : State := { s with pending := x }

/-! ### Views -/

/-- The position as an index of the 32 places of the roster and of the hold set. -/
def placeOf (p : Position) : Fin 32 := ⟨p.toNat, p.isLt⟩

def State.config (s : State) : ConfigRecord := s.loader.config

/-- The own position (R169). -/
def State.own (s : State) : Position := s.loader.own

/-- N, the number of towers. -/
def State.towers (s : State) : Nat := s.config.towers.toNat

/-- The own position equals N: the pacer (R9, R92). -/
def State.isPacer (s : State) : Bool := decide (s.own.toNat = s.towers)

/-- A reset of either kind is in progress (R168). -/
def State.inReset (s : State) : Bool := s.resets.powerOn || s.resets.pin

/-- The configuration checks have passed. -/
def State.checksPassed (s : State) : Bool := decide (s.loader.state = .passed)

/-- The checks have passed and the station is not OFFLINE: the blocks act and the roster takes frames (R102). -/
def State.active (s : State) : Bool := s.checksPassed && decide (s.drive.state ≠ .offline)

/-- The receivers collect (R147): the checks are finished, and the station is not driving a seize (R156). -/
def State.collecting (s : State) : Bool :=
  !s.inReset && (decide (s.loader.state = .passed) || decide (s.loader.state = .failed))
    && decide (s.line.transmitter ≠ .seizing)

def State.isFollowing (s : State) : Bool := s.drive.state.isFollowing

/-- The order number in force; none while the order is unset (R118). -/
def State.orderInForce (s : State) : Option Byte := if s.orders.unset then none else some s.orders.number

/-- The order number of a header or halt record: 0 while the order is unset (R139, R163). -/
def State.headerOrder (s : State) : Byte := if s.orders.unset then 0 else s.orders.number

/-- The station's own readiness (R128, R129): the pacer, or a known lead. -/
def State.ready (s : State) : Bool := s.isPacer || s.governor.lead.isSome

/-- The run request that tiers 8 and 9 read (R9): the Pace Timer's at the pacer, the governor's at a follower. -/
def State.runRequest (s : State) : Bool := if s.isPacer then s.pace.request else s.governor.runRequest

/-- The lead is known and its magnitude is at least X (R36, R37). -/
def State.leadBeyondHalt (s : State) : Bool :=
  match s.governor.lead with
  | none => false
  | some lead => decide (s.governor.levels.halt ≤ (lead.natAbs : Int))

/-- A misalignment: such a lead in a following state (R36). -/
def State.misaligned (s : State) : Bool := s.isFollowing && s.leadBeyondHalt

/-! ### One line of the two -/

def SpanLine.lineState (x : SpanLine) : Line → LineState
  | .a => x.lineA
  | .b => x.lineB

def SpanLine.setLineState (x : SpanLine) (l : Line) (y : LineState) : SpanLine :=
  match l with
  | .a => { x with lineA := y }
  | .b => { x with lineB := y }

/-- Drops the frame in collection: the receiver is DISCARDING until the line has been idle for 2 Tc (R149). A receiver
with nothing in collection stays as it is (log 28). -/
def LineState.discardCollection (y : LineState) : LineState :=
  if y.receiver = .collecting then { y with receiver := .discarding, characters := [], ownFrame := false } else y

/-- A collected frame ends (R149): the receiver is IDLE, and the idle time of 2 Tc arms seize detection again (R157). -/
def LineState.endFrame (y : LineState) : LineState :=
  { y with receiver := .idle, characters := [], ownFrame := false, idleTime := max y.idleTime 2, armed := true,
           dominantRun := 0 }

/-! ### The transmit queue and the transmitter -/

/-- A change of send line (R155): the yield bias is cleared and every slot's clash count is 0. -/
def SpanLine.changeSendLine (x : SpanLine) : SpanLine :=
  { x with sendLine := otherLine x.sendLine, yieldBias := false, claimClashes := 0, answerClashes := 0,
           statusClashes := 0, changeWaiting := false }

/-- A transmission has completed or been cut: the transmitter is RELEASED, and a waiting change of send line is made
(R155). -/
def SpanLine.release (x : SpanLine) : SpanLine :=
  let y := { x with transmitter := .released }
  if x.changeWaiting then y.changeSendLine else y

/-- A STATUS is requested (R159): placed in the STATUS slot, or absorbed by the one waiting there. -/
def State.requestStatus (s : State) : State := s.setLine { s.line with statusSlot := true }

/-- A HOLD of this station is being sent (R85). -/
def SpanLine.holdOnLine (x : SpanLine) : Bool :=
  match x.transmitter with
  | .sending f => decide (f.kind = .claim .hold)
  | .released => false
  | .seizing => false

/-- Entry to OFFLINE (R158): the station stops driving, its slots are emptied and the report timer is stopped. -/
def SpanLine.silence (x : SpanLine) : SpanLine :=
  { x.release with claimSlot := none, answerSlot := none, statusSlot := false, reportTimer := none }

/-- An ANSWER cut by an abandonment returns to its slot; if a newer one waits there the newer stands and the slot's
clash count becomes 0, as after a clash (R140, R154). It returns also when its discard time has run out on the line (log
30). A STATUS returns as one pending STATUS. A claim frame does not return: its slot is emptied on the same entry. -/
def SpanLine.returnAbandoned (x : SpanLine) (f : SentFrame) : SpanLine :=
  match f.kind with
  | .claim _ => x
  | .answer request =>
    { x with answerSlot := some (x.answerSlot.getD request),
             answerClashes := if x.answerSlot.isSome then 0 else x.answerClashes }
  | .status => { x with statusSlot := true }

/-- The seize the Halt Unit orders (R140, R156): a frame being sent is abandoned, frames in collection are dropped, and
both lines are driven dominant. A seize in progress is not begun again. -/
def SpanLine.beginSeize (x : SpanLine) : SpanLine :=
  match x.transmitter with
  | .seizing => x
  | .sending f =>
    let y := (x.returnAbandoned f).release
    { y with transmitter := .seizing, lineA := y.lineA.discardCollection, lineB := y.lineB.discardCollection }
  | .released =>
    { x with transmitter := .seizing, lineA := x.lineA.discardCollection, lineB := x.lineB.discardCollection }

/-- On a remote cause or RESTART a claim frame being sent is abandoned (R140); a STATUS or ANSWER completes. -/
def SpanLine.abandonClaimFrame (x : SpanLine) : SpanLine :=
  match x.transmitter with
  | .sending f =>
    match f.kind with
    | .claim _ => x.release
    | .answer _ => x
    | .status => x
  | .released => x
  | .seizing => x

/-! ### The outward claim (05, sections 5.4 and 5.5) -/

/-- The reach of a reason set (R83, Table 5-3): the largest reach among its reasons. -/
def State.reachOf (s : State) (r : ReasonSet) : Nat :=
  max (if r.lag then 1 else 0) (if r.stall || r.sensor then s.towers - s.own.toNat else 0)

/-- What the claim slot holds after a change to `reasons` (R84, R85). -/
def State.claimFrameFor (s : State) (reasons : ReasonSet) : Option ClaimFrame :=
  if !reasons.isEmpty then some .hold
  else if s.claim.announced || s.line.holdOnLine then some .free
  else none

/-- A supplier reports its reason present or absent (R84, R85). A report that leaves the reason set as it was does
nothing; a change requests a STATUS and settles the claim slot. -/
def State.reportReason (s : State) (reason : ClaimReason) (present : Bool) : State :=
  let reasons := s.claim.reasons.put reason present
  if reasons = s.claim.reasons then s
  else
    (s.setClaim { s.claim with reasons := reasons, reach := s.reachOf reasons }).setLine
      { s.line with claimSlot := s.claimFrameFor reasons, statusSlot := true }

/-- The governor reports the LAG reason as R35 presents it. -/
def State.reportLag (s : State) : State :=
  s.reportReason .lag (s.governor.lagMark && s.isFollowing && !s.isPacer)

/-- The Stride Monitor reports the STALL reason as R67 presents it. -/
def State.reportStall (s : State) : State :=
  s.reportReason .stall (s.stride.stallMark && s.isFollowing && !s.isPacer)

/-- The Sensor Port reports the SENSOR reason as R53 presents it. -/
def State.reportSensor (s : State) : State :=
  s.reportReason .sensor (s.sensor.faultMark && !s.isPacer)

/-- The claim is emptied without a FREE (R87); a claim that was not empty requests a STATUS. -/
def State.emptyClaim (s : State) : State :=
  (s.setClaim { reasons := ReasonSet.empty, reach := 0, announced := false }).setLine
    { s.line with claimSlot := none, statusSlot := s.line.statusSlot || !s.claim.reasons.isEmpty }

/-! ### The hold set (05, sections 5.1 to 5.3) -/

def HoldTable.recordOf (h : HoldTable) (source : Position) : Option HoldRecord := h.records.get (placeOf source)

def HoldTable.put (h : HoldTable) (source : Position) (r : Option HoldRecord) : HoldTable :=
  { h with records := h.records.set (placeOf source) r }

/-- No record is held from any source. -/
def HoldTable.isEmpty (h : HoldTable) : Bool := h.records.toList.all (fun r => r.isNone)

/-- The hold set is emptied whole (R80). -/
def State.emptyHolds (s : State) : State := s.setHolds { s.holds with records := Vector.replicate 32 none }

/-! ### The contactor (R2, R3, R61) -/

/-- A switch-on reported to the Stride Monitor (R61). -/
def StrideMonitor.switchOn (m : StrideMonitor) (c : ConfigRecord) : StrideMonitor :=
  { m with contactorOn := true, segmentPulses := 0, creepCount := 0, coastWindow := none, coastCount := 0,
           stallTimer := if c.stalling = .off then none else some (10 * c.stallTime.toNat) }

/-- A switch-off reported to the Stride Monitor (R61). -/
def StrideMonitor.switchOff (m : StrideMonitor) (c : ConfigRecord) : StrideMonitor :=
  if c.stalling = .off then { m with contactorOn := false, stallTimer := none }
  else { m with contactorOn := false, stallTimer := none, coastWindow := some 30, coastCount := 0 }

/-! ### The lamp (R22) -/

/-- The blink count of an offline cause (R22). -/
def OfflineCause.blinkCount : OfflineCause → Nat
  | .configCheck => 1
  | .configRange => 2
  | .positionRange => 3
  | .positionConflict => 4

/-- The lamp for a state: steady in HALTED, the first blink of the group in OFFLINE with a cause, else off. -/
def DriveControl.setLamp (d : DriveControl) (state : DriveState) (cause : Option OfflineCause) : DriveControl :=
  match state, cause with
  | .offline, some _ => { d with lamp := true, blinkPhase := 0, blinkTimer := some 5 }
  | .halted, _ => { d with lamp := true, blinkPhase := 0, blinkTimer := none }
  | _, _ => { d with lamp := false, blinkPhase := 0, blinkTimer := none }

/-! ### The transition of the drive state (R11)

Each stage is one function; a stage that does not apply returns the state as it is. -/

/-- Stage 1: on leaving RUN the output goes off, the rest starts at 1.0 s and the Stride Monitor is told. -/
def stageContactorOff (old : DriveState) (s : State) : State :=
  if old = .run then
    (s.setDrive { s.drive with runOutput := false, rest := .resting 10 }).setStride (s.stride.switchOff s.config)
  else s

/-- Stage 2: entry to DWELL sets DIRECTION to the order's direction, starts the dwell and empties the window; leaving
DWELL stops the timer. -/
def stageDwell (old new : DriveState) (s : State) : State :=
  if new = .dwell then
    (s.setDrive { s.drive with direction := s.orders.direction,
                               dwellTimer := some (10 * s.config.reversalDwell.toNat) }).setGovernor
      { s.governor with window := [], lead := none, runRequest := false, lagMark := false }
  else if old = .dwell then s.setDrive { s.drive with dwellTimer := none }
  else s

/-- Stage 3: OFFLINE and HALTED open the loop switch; IDLE from HALTED or at the end of the checks closes it (R135). -/
def stageLoop (old new : DriveState) (s : State) : State :=
  if new = .offline ∨ new = .halted then s.setHalt { s.halt with loopClosed := false }
  else if new = .idle ∧ (old = .halted ∨ old = .offline) then s.setHalt { s.halt with loopClosed := true }
  else s

/-- Stage 4: IDLE, HALTED and OFFLINE empty the hold set and the claim. -/
def stageEmptying (new : DriveState) (s : State) : State :=
  if new = .idle ∨ new = .halted ∨ new = .offline then s.emptyHolds.emptyClaim else s

/-- Stage 5: the pacer's Pace Timer runs in WAIT and RUN and is paused in every other state. -/
def stagePace (new : DriveState) (s : State) : State :=
  if s.isPacer then s.setPace { s.pace with running := decide (new = .wait ∨ new = .run) } else s

/-- Stage 6: on entering RUN the output goes on and the Stride Monitor is told. -/
def stageContactorOn (new : DriveState) (s : State) : State :=
  if new = .run then
    (s.setDrive { s.drive with runOutput := true }).setStride (s.stride.switchOn s.config)
  else s

/-- Stage 7: a STATUS is requested unless the new state is OFFLINE. -/
def stageStatus (new : DriveState) (s : State) : State := if new = .offline then s else s.requestStatus

/-- Stage 8: the lamp. -/
def stageLamp (new : DriveState) (s : State) : State :=
  s.setDrive (s.drive.setLamp new s.loader.offlineCause)

/-- What the Order Unit does as MUSTER is left or entered (R127). -/
def stageMuster (old new : DriveState) (s : State) : State :=
  if new = .muster then
    s.setOrders { s.orders with musterTimer := some (10 * s.config.musterTime.toNat), counting := true }
  else if old = .muster then s.setOrders { s.orders with musterTimer := none, counting := false, blocker := none }
  else s

/-- What the Stride Monitor does at a transition, beside the contactor reports: the retry pause stops as STALLED is left
(R65), the stall mark and count clear as the following states are left (R66), the creep count clears at a released halt
(R69), and the coast window stops on OFFLINE (R61). -/
def StrideMonitor.atTransition (m : StrideMonitor) (old new : DriveState) : StrideMonitor :=
  let m := if old = .stalled then { m with retryPause := none } else m
  let m := if new = .dwell ∨ new = .idle ∨ new = .halted ∨ new = .offline then
      { m with consecutiveStalls := 0, stallMark := false } else m
  let m := if old = .halted ∧ new = .idle then { m with creepCount := 0 } else m
  if new = .offline then { m with coastWindow := none } else m

/-- What the Sensor Port does at a transition: the fault mark clears as the following states are left (R53); on OFFLINE
a port with no exchange in flight stops at once (R54). -/
def SensorPort.atTransition (p : SensorPort) (new : DriveState) : SensorPort :=
  let p := if new = .dwell ∨ new = .idle ∨ new = .halted ∨ new = .offline then { p with faultMark := false } else p
  if new = .offline ∧ p.exchange ≠ .readyWait ∧ p.exchange ≠ .shifting then
    { p with exchange := .stopped, sampleTimer := none, pendingExpiry := false }
  else p

/-- What the other blocks do of their own as the state changes. -/
def stageBlocks (old new : DriveState) (s : State) : State :=
  let s := s.setStride (s.stride.atTransition old new)
  let s := s.setSensor (s.sensor.atTransition new)
  if new = .offline then s.setLine s.line.silence else s

/-- The transition to `new` (R11): the eight stages in their order, and the blocks that follow the drive state. The
direction a DWELL takes is that of the order in force, the one whose adoption caused the entry (R5). -/
def State.transition (s : State) (new : DriveState) : State :=
  let old := s.drive.state
  let s := stageContactorOff old s
  let s := stageDwell old new s
  let s := stageLoop old new s
  let s := stageEmptying new s
  let s := stagePace new s
  let s := stageContactorOn new s
  let s := stageMuster old new s
  let s := stageStatus new s
  let s := stageBlocks old new s
  let s := stageLamp new s
  s.setDrive { s.drive with state := new }

/-! ### Latching a halt (09) -/

/-- Table 9-2, the states in which a cause latches a halt. -/
def HaltCause.latchesIn (cause : HaltCause) (state : DriveState) : Bool :=
  match cause with
  | .misalign => state.isFollowing
  | .stall => decide (state = .run)
  | .creep => decide (state = .idle) || state.isUnderway
  | .sensor => state.isFollowing
  | .peerLost => state.isUnderway
  | .panelLost => state.isUnderway
  | .musterTimeout => decide (state = .muster)
  | .loopOpen => state.isUnderway
  | .seized => state.isUnderway
  | .restart => decide (state = .idle)

/-- Table 9-2, the seizing causes. -/
def HaltCause.seizes : HaltCause → Bool
  | .misalign | .stall | .creep | .sensor | .peerLost | .panelLost | .musterTimeout => true
  | .loopOpen | .seized | .restart => false

/-- A cause taken in HALTED (R141): added to the later-causes set where Table 9-2 allows it and it is not the record's
cause. A loop loss is added only to a record whose cause is SEIZED. -/
def HaltRecord.addLater (r : HaltRecord) (cause : HaltCause) : HaltRecord :=
  if r.cause = some cause then r
  else
    match cause with
    | .creep => { r with later := { r.later with creep := true } }
    | .peerLost => { r with later := { r.later with peerLost := true } }
    | .panelLost => { r with later := { r.later with panelLost := true } }
    | .loopOpen => if r.cause = some .seized then { r with later := { r.later with loopOpen := true } } else r
    | .seized => { r with later := { r.later with seized := true } }
    | .restart => { r with later := { r.later with restart := true } }
    | .misalign => r
    | .stall => r
    | .sensor => r
    | .musterTimeout => r

/-- The halt record written at a latching (R139). -/
def State.haltRecordFor (s : State) (cause : HaltCause) (origin : Option Position) : HaltRecord :=
  { cause := some cause, origin := origin, remoteCause := none, later := LaterCauses.empty, order := s.headerOrder,
    timeTag := s.localTime, lead := s.governor.lead.getD 0, strides := s.stride.strideCount,
    priorState := s.drive.state }

/-- The work on the line of an entry to HALTED (R140). -/
def State.trimForHalt (s : State) (cause : HaltCause) : State :=
  if cause.seizes then s.setLine s.line.beginSeize else s.setLine s.line.abandonClaimFrame

/-- Entry to HALTED: latch, record, transition, trimming (R139, R140). -/
def State.enterHalted (s : State) (cause : HaltCause) (origin : Option Position) : State :=
  let s := s.setHalt { s.halt with latched := true, record := s.haltRecordFor cause origin }
  (s.transition .halted).trimForHalt cause

/-- A cause arrives at the Halt Unit (Table 9-2): in HALTED it may become a later cause, in a state where it latches it
halts the station, and elsewhere it changes nothing. -/
def State.raiseHalt (s : State) (cause : HaltCause) (origin : Option Position) : State :=
  if s.drive.state = .halted then s.setHalt { s.halt with record := s.halt.record.addLater cause }
  else if cause.latchesIn s.drive.state then s.enterHalted cause origin
  else s

/-! ### The run decision (R7, R8) -/

/-- Tiers 1 to 3 of Table 1-2; none when none of them holds. -/
def State.topTier (s : State) : Option DriveState :=
  if s.checksPassed = false ∨ s.loader.offlineCause ≠ none then some .offline
  else if s.halt.latched then some .halted
  else if s.orders.unset = true ∨ s.orders.action ≠ .run then some .idle
  else none

/-- Tiers 7 to 9 of Table 1-2. -/
def State.movingTier (s : State) : DriveState :=
  if !s.holds.isEmpty then .held
  else if s.runRequest = true ∧ s.drive.rest = .rested then .run
  else .wait

/-- The whole order of force (Table 1-2). -/
def State.settledState (s : State) : DriveState :=
  match s.topTier with
  | some d => d
  | none =>
    if s.drive.state = .dwell ∧ s.drive.dwellTimer ≠ none then .dwell
    else if s.drive.state = .muster ∧ s.orders.counting = true then .muster
    else if s.drive.state = .stalled ∧ s.stride.retryPause ≠ none then .stalled
    else s.movingTier

/-- What a station does on entry to a following state: the LAG reason is presented if its mark is set (R35), and the
lead in force is tested for misalignment (R36). The transition is made whole before the test, an entry to RUN with its
output on, though R36 says such a station halts at once instead of running (log 35). -/
def State.followingEntry (s : State) : State :=
  if s.isFollowing then
    let s := s.reportLag
    if s.misaligned then s.raiseHalt .misalign (some s.own) else s
  else s

/-- Drive Control settles the state again (R8): a transition when the settled state differs, nothing when it does not.
The stages of R11 come before the test of the lead on entry to a following state (R36, log 35). -/
def State.settle (s : State) : State :=
  if s.settledState = s.drive.state then s else (s.transition s.settledState).followingEntry

/-- A position conflict (R12, R106, R154): OFFLINE with that cause, from every other state. -/
def State.positionConflict (s : State) : State :=
  if s.drive.state = .offline then s
  else (s.setLoader { s.loader with offlineCause := some .positionConflict }).transition .offline

/-! ### The pace period (06) -/

/-- The pace period T in tenths (R93). -/
def State.pacePeriod (s : State) : Nat := 10 * s.config.pacePeriod.toNat

/-- The ON length of a period at a pace (R93): T × pace / 100, truncated to a tenth. -/
def State.onLengthAt (s : State) (pace : Nat) : Nat := s.pacePeriod * pace / 100

/-- A period starts (R95, R97): position 0, the pending pace taken up, the ON length and the request computed. -/
def State.startPeriod (s : State) : State :=
  let pace := s.pace.pendingPace.getD s.pace.pace
  s.setPace { s.pace with position := 0, pace := pace, pendingPace := none, onLength := s.onLengthAt pace,
                          request := decide (0 < s.onLengthAt pace) }

/-! ### The census (R128 to R131) -/

def Roster.recordOf (r : Roster) (p : Position) : RosterRecord := r.records.get (placeOf p)

def Roster.put (r : Roster) (p : Position) (x : RosterRecord) : Roster :=
  { r with records := r.records.set (placeOf p) x }

/-- The reported order of a record is set and carries this number, and the record is CURRENT. -/
def RosterRecord.onOrder (r : RosterRecord) (number : Byte) : Bool :=
  decide (r.presence = .current) &&
    match r.reported with
    | none => false
    | some x => decide (x.order = some number)

/-- Condition 4 of R128 for one tower: on the order, ready, and reported in MUSTER, WAIT, RUN, HELD or STALLED. -/
def RosterRecord.mustered (r : RosterRecord) (number : Byte) : Bool :=
  r.onOrder number &&
    match r.reported with
    | none => false
    | some x => x.ready && decide (3 ≤ x.state.toNat ∧ x.state.toNat ≤ 7)

/-- The positions 0 to 31 in order. -/
def allPositions : List Position := (List.range 32).map (BitVec.ofNat 5)

/-- Whether the record of an expected position other than the own passes its census condition. -/
def State.positionMustered (s : State) (p : Position) : Bool :=
  match s.orderInForce with
  | none => false
  | some number =>
    if p = 0 then (s.roster.recordOf p).onOrder number else (s.roster.recordOf p).mustered number

/-- The first failing condition in the order of R130; none when the census is complete (R128). -/
def State.censusBlocker (s : State) : Option Blocker :=
  if !s.halt.settledSense then some .loop
  else if !s.ready then some .ownReadiness
  else
    (allPositions.find? (fun p => decide (p.toNat ≤ s.towers) && decide (p ≠ s.own) && !s.positionMustered p)).map
      Blocker.position

/-- Completion (R131): the timer stops, the census is INACTIVE, the pacer restarts its period, and the state is
settled. -/
def State.completeCensus (s : State) : State :=
  let s := s.setOrders { s.orders with musterTimer := none, counting := false, blocker := none }
  let s := if s.isPacer then s.startPeriod else s
  s.settle

/-- One evaluation of the census (R130), made only while it is COUNTING. -/
def State.evaluateCensus (s : State) : State :=
  if s.orders.counting then
    match s.censusBlocker with
    | some b => s.setOrders { s.orders with blocker := some b }
    | none => s.completeCensus
  else s

/-- Entry to MUSTER (R16, R127): the transition, then the first evaluation of the census. -/
def State.enterMuster (s : State) : State := (s.transition .muster).evaluateCensus

/-! ### A change of the lead (02, sections 2.3 to 2.9) -/

/-- The mean of a window, truncated toward zero, under a direction (R27). -/
def leadOf (window : List Int) (d : Direction) : Option Int :=
  match window with
  | [] => none
  | _ :: _ => some (window.sum.tdiv window.length * d.sign)

/-- The judgements of a lead (R32, R34): hysteresis on the run request and on the lag mark. -/
def Governor.judge (g : Governor) (lead : Option Int) : Governor :=
  match lead with
  | none => { g with lead := none, runRequest := false, lagMark := false }
  | some x =>
    { g with
      lead := some x
      runRequest := if g.levels.start ≤ x then true else if x ≤ g.levels.stop then false else g.runRequest
      lagMark := if g.levels.hold ≤ x then true else if x ≤ g.levels.resume then false else g.lagMark }

/-- A bend joins the window (R25): the oldest leaves when the window held K. -/
def joinWindow (size : Nat) (window : List Int) (bend : Int) : List Int :=
  if window.length < size then window ++ [bend] else window.tail ++ [bend]

/-- A good sample in the window, with the new lead and its judgements. -/
def Governor.sample (g : Governor) (bend : Int) (d : Direction) : Governor :=
  let window := joinWindow g.size g.window bend
  { g with window := window }.judge (leadOf window d)

/-- The window emptied (R26): the lead unknown, the request absent, the lag mark clear. -/
def Governor.emptied (g : Governor) : Governor := { g with window := [] }.judge none

/-- A halt taken in RUN together with a withdrawn run request (R39, log 9): the two orders differ in nothing but the
record's prior state, RUN when the halt is taken first and WAIT when the withdrawal is, and the spec does not say
which. -/
def State.haltAfterWithdrawal (s : State) (cause : HaltCause) : State :=
  let t := s.raiseHalt cause (some s.own)
  if s.drive.state = .run ∧ s.governor.runRequest = false then
    (t.setHalt { t.halt with record := { t.halt.record with
      priorState := if Config.reportTakenFirst s.choices then .wait else .run } }).setChoices (s.choices + 1)
  else t

/-- A misalignment on a new lead (R36, R39). A request that has become present with it would start the motor if its
report is taken before the halt; the order is free (log 9). -/
def State.misalignReports (s : State) : State :=
  if s.settledState = .run ∧ s.drive.state ≠ .run then
    if Config.reportTakenFirst s.choices then (s.setChoices (s.choices + 1)).settle
    else (s.setChoices (s.choices + 1)).raiseHalt .misalign (some s.own)
  else s.haltAfterWithdrawal .misalign

/-- The reports of one pass over a new lead (R39): a misalignment to the Halt Unit; otherwise a changed run request to
Drive Control, the LAG reason to the Claim Unit, and a changed known mark to the census. `before` is the governor
before the change. -/
def State.leadReports (s : State) (before : Governor) : State :=
  if s.misaligned then s.misalignReports
  else
    let t := if before.runRequest = s.governor.runRequest then s else s.settle
    let t := t.reportLag
    if before.lead.isSome = s.governor.lead.isSome then t else t.evaluateCensus

/-- A good sample is handed to the governor (R25). -/
def State.takeSample (s : State) (bend : Int) : State :=
  (s.setGovernor (s.governor.sample bend s.drive.direction)).leadReports s.governor

/-- A failure notice that asks for emptying (R26). -/
def State.emptyWindow (s : State) : State := (s.setGovernor s.governor.emptied).leadReports s.governor

/-! ### Writing and removing hold records (R75 to R77) -/

/-- A record is inserted or replaced; an insertion that makes the set non-empty is reported to Drive Control. -/
def State.writeHold (s : State) (source : Position) (r : HoldRecord) : State :=
  let t := s.setHolds (s.holds.put source (some r))
  if s.holds.isEmpty then t.settle else t

/-- Any record from the source is removed; a removal that empties the set is reported to Drive Control. -/
def State.removeHold (s : State) (source : Position) : State :=
  match s.holds.recordOf source with
  | none => s
  | some _ =>
    let t := s.setHolds (s.holds.put source none)
    if t.holds.isEmpty then t.settle else t

/-- A claim as HOLD and STATUS frames carry it, applied to the hold set (R75 to R77). -/
def State.applyClaim (s : State) (source : Position) (reasons reach : Byte) : State :=
  let named := ReasonSet.ofByte reasons
  if named.isEmpty = false ∧ covers source reach.toNat s.own = true then
    s.writeHold source { reasons := named, reach := reach, order := s.orders.number, placed := s.localTime }
  else s.removeHold source

/-- Conditions 2 and 3 of R74: an inboard source from 1, and the order number in force. -/
def State.claimMatches (s : State) (source : Position) (order : Option Byte) : Bool :=
  decide (1 ≤ source.toNat ∧ source.toNat < s.own.toNat) && order.isSome && decide (order = s.orderInForce)

/-! ### Adopting an order (R120 to R126) -/

/-- The Halt Unit's decision on a CLEAR (R144): kept while the lead is known and at least X, released otherwise. -/
def State.decideClear (s : State) : State :=
  if s.leadBeyondHalt then s else s.setHalt { s.halt with latched := false }

/-- Drive Control takes an adopted order (R8, R122 stage 4): a reversal enters DWELL, a RUN in the direction of the
output enters MUSTER from IDLE, and everything else is settled by the table. -/
def State.settleAdopted (s : State) : State :=
  match s.topTier with
  | some _ => s.settle
  | none =>
    if s.orders.direction ≠ s.drive.direction then s.transition .dwell
    else if s.drive.state = .idle then s.enterMuster
    else s.settle

/-- The suppliers report their reasons afresh (R87). -/
def State.reportReasons (s : State) : State := s.reportLag.reportStall.reportSensor

/-- Stages 5 and 6 of R122: in MUSTER a STATUS is requested and the census evaluated against the new number; in a
following state the claim rises afresh. -/
def State.afterAdoption (s : State) : State :=
  if s.drive.state = .muster then s.requestStatus.evaluateCensus
  else if s.isFollowing then s.reportReasons
  else s

/-- Stage 1 of R122: the order in force is written and the unset mark cleared. -/
def OrderUnit.adopt (o : OrderUnit) (number : Byte) (action : Action) (direction : Direction) (pace : Nat) :
    OrderUnit :=
  { o with unset := false, number := number, action := action, direction := direction, pace := pace }

/-- Stages 1 to 3 of R122: the order written, the hold set and the claim emptied, the pacer's pending pace set. -/
def State.writeOrder (s : State) (number : Byte) (action : Action) (direction : Direction) (pace : Nat) : State :=
  let t := (s.setOrders (s.orders.adopt number action direction pace)).emptyHolds.emptyClaim
  if t.isPacer = true ∧ action = .run then t.setPace { t.pace with pendingPace := some pace } else t

/-- An adoption (R122), by catch-up or from an ORDER frame. A RUN by catch-up that finds the order unset requests a
RESTART halt instead of running (R123). -/
def State.adopt (s : State) (byCatchUp : Bool) (number : Byte) (action : Action) (direction : Direction)
    (pace : Nat) : State :=
  let t := s.writeOrder number action direction pace
  if byCatchUp = true ∧ action = .run ∧ s.orders.unset = true then
    (t.raiseHalt .restart (some s.own)).afterAdoption
  else
    let t := if t.drive.state = .halted ∧ action = .clear then t.decideClear else t
    t.settleAdopted.afterAdoption

/-- The refused-order count rises (R120). -/
def State.refuseOrder (s : State) : State := s.setOrders { s.orders with refused := satInc s.orders.refused }

/-- The number may be adopted: the order is unset, or the number is ahead (R120). -/
def State.numberAhead (s : State) (number : Byte) : Bool := s.orders.unset || ahead number s.orders.number

/-- An ORDER frame at the Order Unit (R120): undefined codes and stale numbers are refused and counted. -/
def State.takeOrder (s : State) (number actionCode directionCode pace : Byte) : State :=
  match actionOfCode actionCode, directionOfCode directionCode with
  | some action, some direction =>
    if s.numberAhead number then s.adopt false number action direction (paceOfField pace) else s.refuseOrder
  | none, _ => s.refuseOrder
  | some _, none => s.refuseOrder

/-- A STATUS of the panel at the Order Unit (R121): catch-up. -/
def State.catchUp (s : State) (number : Byte) (b : StatusBody) : State :=
  if orderUnsetFlag b then s
  else if s.numberAhead number then
    match actionOfCode (b.actionDirection >>> 4), directionOfCode (b.actionDirection &&& 0x0F) with
    | some action, some direction => s.adopt true number action direction (paceOfField b.pace)
    | none, _ => s.refuseOrder
    | some _, none => s.refuseOrder
  else s

/-! ### Answers in the queue (R160, R165) -/

/-- An ANSWER is placed in its slot with its discard time of 2.0 s, replacing one that waits. -/
def State.queueAnswer (s : State) (item argument : Byte) : State :=
  s.setLine { s.line with answerSlot := some { item := item, argument := argument, discard := 20 } }

end Sys2Proof.Machine
end

