-- ==== Sys2Proof/Machine/Ageing.lean ====
section
/-! DEFINITION. The limits of the roster's ages and the muster timer (07, section 7.3; 08, section 8.3). -/
namespace Sys2Proof.Machine

/-- STALE_AGE_PASSED (R113, R114): a CURRENT record of another expected position, its age greater than the stale age,
becomes STALE, and the change goes to the census. A record heard since is younger and stays CURRENT (R115). -/
def execStaleAgePassed (position : Position) (s : State) : Host.Outcome State Fault Refusal :=
  let r := s.roster.recordOf position
  if s.active = true ∧ position ≠ s.own ∧ r.expected = true ∧ r.presence = .current
      ∧ s.config.staleAge < r.age.toNat then
    .next (s.setRoster (s.roster.put position { r with presence := .stale })).evaluateCensus
  else .next s

/-- LOST_LIMIT_PASSED (R113 to R115, R138): a CURRENT or STALE record older than the lost limit becomes LOST; the loss
goes to the census, and to the Halt Unit as PANEL_LOST or PEER_LOST with the lost position as origin. -/
def execLostLimitPassed (position : Position) (s : State) : Host.Outcome State Fault Refusal :=
  let r := s.roster.recordOf position
  if s.active = true ∧ position ≠ s.own ∧ r.expected = true ∧ (r.presence = .current ∨ r.presence = .stale)
      ∧ s.config.lostTenths < r.age.toNat then
    .next ((s.setRoster (s.roster.put position { r with presence := .lost })).evaluateCensus.raiseHalt
      (if position = 0 then .panelLost else .peerLost) (some position))
  else .next s

/-- MUSTER_TIMER_EXPIRY (R127), when the timer has run out: the census is INACTIVE and a MUSTER_TIMEOUT halt is
requested. -/
def execMusterTimerExpiry (s : State) : Host.Outcome State Fault Refusal :=
  if s.drive.state = .muster ∧ s.orders.musterTimer = some 0 then
    .next ((s.setOrders { s.orders with musterTimer := none, counting := false, blocker := none }).raiseHalt
      .musterTimeout (some s.own))
  else .next s

end Sys2Proof.Machine
end

