-- ==== Sys2Proof/Machine/Receive.lean ====
section
/-! DEFINITION. The receivers: characters, frame ends, failed checks, seizes and the line state (10, sections 10.2, 10.3
and 10.7). -/
namespace Sys2Proof.Machine

/-- One line updated. -/
def State.modifyLine (s : State) (l : Line) (f : LineState → LineState) : State :=
  s.setLine (s.line.setLineState l (f (s.line.lineState l)))

/-- The station is sending on this line, so what it collects there is its own readback (R105). -/
def SpanLine.readsBack (x : SpanLine) (l : Line) : Bool :=
  match x.transmitter with
  | .sending _ => decide (l = x.sendLine)
  | .released => false
  | .seizing => false

/-- The noisy count takes a character whose votes disagree (R148). -/
def LineCounters.noteNoise (c : LineCounters) (samples : CharacterSamples) : LineCounters :=
  if isNoisy samples then { c with noisy := satInc c.noisy } else c

/-- A character at a receiver (R148, R149). A glitch or a DISCARDING receiver takes none; a dominant stop bit and a 25th
character discard the frame; any other joins the frame in collection. -/
def LineState.takeCharacter (y : LineState) (samples : CharacterSamples) (own : Bool) : LineState :=
  if startsCharacter samples = false ∨ y.receiver = .discarding then { y with idleTime := 0 }
  else
    let counters := y.counters.noteNoise samples
    if stopIsDominant samples then
      { y with receiver := .discarding, characters := [], ownFrame := false, idleTime := 0,
               counters := { counters with framing := satInc counters.framing } }
    else if y.characters.length = 24 then
      { y with receiver := .discarding, characters := [], ownFrame := false, idleTime := 0,
               counters := { counters with format := satInc counters.format } }
    else
      { y with receiver := .collecting, characters := y.characters ++ [characterValue samples],
               ownFrame := y.ownFrame || own, idleTime := 0, dominantRun := 0, counters := counters }

/-- CHARACTER_RECEIVED (R148). -/
def execCharacterReceived (line : Line) (samples : CharacterSamples) (s : State) : Host.Outcome State Fault Refusal :=
  if s.collecting then
    .next (s.modifyLine line (fun y => y.takeCharacter samples (s.line.readsBack line)))
  else .next s

/-- The count a failed check raises (Table 10-2). -/
def LineCounters.noteFailure (c : LineCounters) (f : FrameFailure) : LineCounters :=
  match f with
  | .framing => { c with framing := satInc c.framing }
  | .format => { c with format := satInc c.format }
  | .crcBad => { c with crcBad := satInc c.crcBad }

/-- The yield bias is cleared at the end of a frame of another station on the send line (R152). -/
def SpanLine.hearFrame (x : SpanLine) (l : Line) : SpanLine :=
  if l = x.sendLine then { x with yieldBias := false } else x

/-- The frame in collection ends and fails a check (R150): the count of its line rises. -/
def State.dropFailed (s : State) (line : Line) (f : FrameFailure) : State :=
  let t := s.modifyLine line (fun y => { y.endFrame with counters := y.counters.noteFailure f })
  t.setLine (t.line.hearFrame line)

/-- FRAME_CHECK_FAILED (R150): the frame in collection is judged and discarded, and the count of the first failing check
rises. The station's own readback is not judged. -/
def execFrameCheckFailed (line : Line) (s : State) : Host.Outcome State Fault Refusal :=
  let y := s.line.lineState line
  if s.collecting = true ∧ y.receiver = .collecting then
    if y.ownFrame then .next (s.modifyLine line LineState.endFrame)
    else
      match checkFrame y.characters with
      | none => .next s
      | some f => .next (s.dropFailed line f)
  else .next s

/-- A detected seize at one line (R157): counted, the collection dropped, detection SPENT. -/
def LineState.takeSeize (y : LineState) : LineState :=
  { y.discardCollection with armed := false, dominantRun := 20, idleTime := 0,
                             counters := { y.counters with seizes := satInc y.counters.seizes } }

/-- SEIZE_DETECTED (R137, R157): on an ARMED line by a station that is not SEIZING; the Halt Unit is told, and takes it
as SEIZED outside OFFLINE. -/
def execSeizeDetected (line : Line) (s : State) : Host.Outcome State Fault Refusal :=
  if s.collecting = true ∧ (s.line.lineState line).armed = true then
    let t := s.modifyLine line LineState.takeSeize
    if t.active then .next (t.raiseHalt .seized none) else .next t
  else .next s

/-- QUIET_TIMER_EXPIRY (R151, R155): the line is QUIET. The send line gone QUIET while the other is ALIVE changes it,
after a transmission in progress, when the alternate line is enabled by a configuration in force. A timer that a good
frame has started again has not run out, and the line stays ALIVE (R162). -/
def execQuietTimerExpiry (line : Line) (s : State) : Host.Outcome State Fault Refusal :=
  if (s.line.lineState line).quietTimer = some 0 then
    let t := s.modifyLine line (fun y => { y with alive := false, quietTimer := none })
    if line = t.line.sendLine ∧ (t.line.lineState (otherLine line)).alive = true ∧ t.checksPassed = true
        ∧ t.config.alternateLine = 1 then
      match t.line.transmitter with
      | .sending _ => .next (t.setLine { t.line with changeWaiting := true })
      | .released => .next (t.setLine t.line.changeSendLine)
      | .seizing => .next (t.setLine t.line.changeSendLine)
    else .next t
  else .next s

end Sys2Proof.Machine
end

