-- ==== Sys2Proof/Machine/Frames.lean ====
section
/-! DEFINITION. A good frame taken whole: the interface, the four tests of the roster, the record, and the blocks it is
handed to (07, section 7.2; 05; 08; 09). -/
namespace Sys2Proof.Machine

/-- The frame kinds of Table 10-3. -/
inductive FrameClass where
  | status
  | order
  | hold
  | free
  | ask
  | answer
  deriving DecidableEq, Repr

/-- The acceptance table (Table 10-3), for a source already known to be from 0 to N. -/
def FrameClass.acceptsFrom (k : FrameClass) (source : Position) : Bool :=
  match k with
  | .status => true
  | .order => decide (source = 0)
  | .ask => decide (source = 0)
  | .hold => decide (source ≠ 0)
  | .free => decide (source ≠ 0)
  | .answer => decide (source ≠ 0)

/-- A record that an accepted frame updates (R109, R110): CURRENT, age 0, the sequence, one more frame; a gap from a
CURRENT or STALE record joins the missed count, and an ABSENT or LOST one loses its reported fields. Frames lost before
an ABSENT record is first heard give no gap (R109), though R173 has those lost in the configuration read show later as
gaps (log 34). -/
def RosterRecord.heard (r : RosterRecord) (seq : Byte) : RosterRecord :=
  let known := decide (r.presence = .current ∨ r.presence = .stale)
  { r with presence := .current, age := 0, lastSeq := some seq, accepted := satInc r.accepted,
           missed := match known, r.lastSeq with
             | true, some last => satAdd r.missed (sequenceGap seq last)
             | true, none => r.missed
             | false, _ => r.missed
           reported := if known then r.reported else none }

/-- The frame repeats its source's last sequence (R109). -/
def RosterRecord.isDuplicate (r : RosterRecord) (seq : Byte) : Bool :=
  decide ((r.presence = .current ∨ r.presence = .stale) ∧ r.lastSeq = some seq)

/-- The reported fields of a STATUS (R111). -/
def reportedOf (h : Header) (b : StatusBody) : Reported :=
  { state := b.state, order := if orderUnsetFlag b then none else some h.order, ready := readyFlag b, cause := b.cause,
    origin := b.origin }

/-- An accepted frame (R110 to R112, R114): the record is updated, `fill` taking a STATUS's fields; a change of presence
goes to the census; then the frame is handed on. -/
def State.acceptFrame (s : State) (h : Header) (fill : RosterRecord → RosterRecord) (deliver : State → State) :
    State :=
  let r := s.roster.recordOf h.source
  let t := s.setRoster (s.roster.put h.source (fill (r.heard h.seq)))
  deliver (if r.presence = .current then t else t.evaluateCensus)

/-- The four tests of Table 7-2 in their order. -/
def State.rosterTake (s : State) (h : Header) (k : FrameClass) (fill : RosterRecord → RosterRecord)
    (deliver : State → State) : State :=
  let r := s.roster.recordOf h.source
  if h.source = s.own then s.positionConflict
  else if s.towers < h.source.toNat then
    s.setRoster { s.roster.put h.source { r with accepted := satInc r.accepted } with
      strangerTotal := satInc s.roster.strangerTotal }
  else if k.acceptsFrom h.source = false then
    s.setRoster { s.roster with notAcceptedTotal := satInc s.roster.notAcceptedTotal }
  else if r.isDuplicate h.seq then
    s.setRoster { s.roster with duplicateTotal := satInc s.roster.duplicateTotal }
  else s.acceptFrame h fill deliver

/-- A good frame refreshes its line (R150, R151): counted, ALIVE, the quiet timer started afresh. -/
def LineState.takeGood (y : LineState) (quiet : Nat) : LineState :=
  { y.endFrame with alive := true, quietTimer := some quiet,
                    counters := { y.counters with good := satInc y.counters.good } }

/-- The interface's part of a good frame of another station. A station whose checks failed has no configuration in
force, and takes the line quiet time from the record it read (log 33). -/
def State.noteGood (s : State) (l : Line) : State :=
  let t := s.modifyLine l (fun y => y.takeGood s.config.lostTenths)
  t.setLine (t.line.hearFrame l)

/-- A good frame (R105, R149, R150): nothing is collected in a reset, before the checks, while SEIZING, or by a receiver
that is DISCARDING; the station's own readback ends at the receiver; any other refreshes its line, and goes to the
roster outside OFFLINE. -/
def State.receiveGood (s : State) (h : Header) (k : FrameClass) (fill : RosterRecord → RosterRecord)
    (deliver : State → State) : State :=
  if s.collecting = false ∨ (s.line.lineState h.line).receiver = .discarding then s
  else if (s.line.lineState h.line).ownFrame = true ∨ s.line.readsBack h.line = true then
    s.modifyLine h.line LineState.endFrame
  else
    let t := s.noteGood h.line
    if t.active then t.rosterTake h k fill deliver else t

/-! ### What each block does with the frame -/

/-- Origin refinement (R143, R164): a STATUS of a HALTED station that names itself as origin, with a defined cause
code, sets the origin and remote cause of an unrefined LOOP_OPEN or SEIZED record. -/
def State.refineOrigin (s : State) (h : Header) (b : StatusBody) : State :=
  let r := s.halt.record
  if s.halt.latched = true ∧ (r.cause = some .loopOpen ∨ r.cause = some .seized) ∧ r.origin = none
      ∧ b.state = DriveState.halted.code ∧ b.origin = h.source.setWidth 8 then
    match haltCauseOfCode b.cause with
    | some cause => s.setHalt { s.halt with record := { r with origin := some h.source, remoteCause := cause } }
    | none => s
  else s

/-- A STATUS at the Hold Table (R74, R77, R78): applied when it is applicable, else nothing. -/
def State.holdFromStatus (s : State) (h : Header) (b : StatusBody) : State :=
  if s.claimMatches h.source (if orderUnsetFlag b then none else some h.order) = true
      ∧ s.drive.state.isUnderway = true then
    s.applyClaim h.source b.reasons b.reach
  else s

/-- A STATUS handed on (R112, R130): the panel's to the Order Unit and the Halt Unit, a tower's to the Hold Table and
the Halt Unit; then the census is evaluated. -/
def State.deliverStatus (s : State) (h : Header) (b : StatusBody) : State :=
  let t := if h.source = 0 then s.catchUp h.order b else s.holdFromStatus h b
  (t.refineOrigin h b).evaluateCensus

/-- A STATUS frame (R111). -/
def State.receiveStatus (s : State) (h : Header) (b : StatusBody) : State :=
  s.receiveGood h .status (fun r => { r with reported := some (reportedOf h b) }) (fun t => t.deliverStatus h b)

/-- STATUS_FRAME (R111). -/
def execStatusFrame (h : Header) (b : StatusBody) (s : State) : Host.Outcome State Fault Refusal :=
  .next (s.receiveStatus h b)

/-- An ORDER frame with these codes. -/
def State.receiveOrder (s : State) (h : Header) (action direction pace : Byte) : State :=
  s.receiveGood h .order id (fun t => t.takeOrder h.order action direction pace)

/-- RUN_ORDER (R126). -/
def execRunOrder (h : Header) (direction pace : Byte) (s : State) : Host.Outcome State Fault Refusal :=
  .next (s.receiveOrder h Action.run.code direction pace)

/-- STOP_ORDER (R124). -/
def execStopOrder (h : Header) (direction pace : Byte) (s : State) : Host.Outcome State Fault Refusal :=
  .next (s.receiveOrder h Action.stop.code direction pace)

/-- CLEAR_ORDER (R125). -/
def execClearOrder (h : Header) (direction pace : Byte) (s : State) : Host.Outcome State Fault Refusal :=
  .next (s.receiveOrder h Action.clear.code direction pace)

/-- ORDER_UNDEFINED_ACTION (R120). -/
def execOrderUndefinedAction (h : Header) (action direction pace : Byte) (s : State) :
    Host.Outcome State Fault Refusal :=
  .next (s.receiveOrder h action direction pace)

/-- A HOLD at the Hold Table (R75, R76, R78): applied when underway; in IDLE and HALTED one that would cover the station
is counted as unapplied. One that still carries the number of the order before fails R74's condition 3 and is not
counted, though R91 has a HOLD that a STOP overtook counted (log 32). -/
def State.deliverHold (s : State) (h : Header) (reasons reach : Byte) : State :=
  if s.claimMatches h.source (some h.order) then
    if s.drive.state.isUnderway then s.applyClaim h.source reasons reach
    else if (ReasonSet.ofByte reasons).isEmpty = false ∧ covers h.source reach.toNat s.own = true then
      s.setHolds { s.holds with unappliedHold := satInc s.holds.unappliedHold }
    else s
  else s

/-- A HOLD frame (R75). -/
def State.receiveHold (s : State) (h : Header) (reasons reach : Byte) : State :=
  s.receiveGood h .hold id (fun t => t.deliverHold h reasons reach)

/-- HOLD_FRAME (R75). -/
def execHoldFrame (h : Header) (reasons reach : Byte) (s : State) : Host.Outcome State Fault Refusal :=
  .next (s.receiveHold h reasons reach)

/-- A FREE at the Hold Table (R77, R78): the record of its source is removed, or the unmatched count rises. -/
def State.deliverFree (s : State) (h : Header) : State :=
  if s.claimMatches h.source (some h.order) = true ∧ s.drive.state.isUnderway = true then
    match s.holds.recordOf h.source with
    | some _ => s.removeHold h.source
    | none => s.setHolds { s.holds with unmatchedFree := satInc s.holds.unmatchedFree }
  else s

/-- A FREE frame (R77). -/
def State.receiveFree (s : State) (h : Header) : State := s.receiveGood h .free id (fun t => t.deliverFree h)

/-- FREE_FRAME (R77). -/
def execFreeFrame (h : Header) (s : State) : Host.Outcome State Fault Refusal := .next (s.receiveFree h)

/-- An ANSWER frame (R112): it refreshes its source's record and goes to no block, so its body is not read. -/
def State.receiveAnswer (s : State) (h : Header) : State := s.receiveGood h .answer id id

/-- ANSWER_FRAME (R112). -/
def execAnswerFrame (h : Header) (_item _argument : Byte) (_data : BitVec 64) (s : State) :
    Host.Outcome State Fault Refusal :=
  .next (s.receiveAnswer h)

end Sys2Proof.Machine
end

