-- ==== Sys2Proof/Machine/Questions.lean ====
section
/-! DEFINITION. The questions (11, section 11.2): each ASK addressed to this station queues an ANSWER with its item and
argument. The answer's data are read when its transmission starts (Transmit.lean). -/
namespace Sys2Proof.Machine

/-- An ASK handed to the question handler (R165): ignored unless its target is the own position. -/
def State.deliverAsk (s : State) (target item argument : Byte) : State :=
  if target = s.own.setWidth 8 then s.queueAnswer item argument else s

/-- An ASK frame (R165). -/
def State.receiveAsk (s : State) (h : Header) (target item argument : Byte) : State :=
  s.receiveGood h .ask id (fun t => t.deliverAsk target item argument)

/-- HALT_RECORD (R145). -/
def execHaltRecord (h : Header) (target argument : Byte) (s : State) : Host.Outcome State Fault Refusal :=
  .next (s.receiveAsk h target 1 argument)

/-- ROSTER_VIEW (R116). -/
def execRosterView (h : Header) (target argument : Byte) (s : State) : Host.Outcome State Fault Refusal :=
  .next (s.receiveAsk h target 2 argument)

/-- LINE_COUNTS (R161). -/
def execLineCounts (h : Header) (target argument : Byte) (s : State) : Host.Outcome State Fault Refusal :=
  .next (s.receiveAsk h target 3 argument)

/-- DRIVE_COUNTS (R70). -/
def execDriveCounts (h : Header) (target argument : Byte) (s : State) : Host.Outcome State Fault Refusal :=
  .next (s.receiveAsk h target 4 argument)

/-- CONFIG_DIGEST (R166). -/
def execConfigDigest (h : Header) (target argument : Byte) (s : State) : Host.Outcome State Fault Refusal :=
  .next (s.receiveAsk h target 5 argument)

/-- HOLD_VIEW (R81). -/
def execHoldView (h : Header) (target argument : Byte) (s : State) : Host.Outcome State Fault Refusal :=
  .next (s.receiveAsk h target 6 argument)

/-- ORDER_VIEW (R133). -/
def execOrderView (h : Header) (target argument : Byte) (s : State) : Host.Outcome State Fault Refusal :=
  .next (s.receiveAsk h target 7 argument)

/-- HALT_POINT (R145). -/
def execHaltPoint (h : Header) (target argument : Byte) (s : State) : Host.Outcome State Fault Refusal :=
  .next (s.receiveAsk h target 8 argument)

/-- LINE_FAULTS (R161). -/
def execLineFaults (h : Header) (target argument : Byte) (s : State) : Host.Outcome State Fault Refusal :=
  .next (s.receiveAsk h target 9 argument)

/-- ASK_UNKNOWN_ITEM (R167): item and argument are judged when the ANSWER's transmission starts. -/
def execAskUnknownItem (h : Header) (target item argument : Byte) (s : State) :
    Host.Outcome State Fault Refusal :=
  .next (s.receiveAsk h target item argument)

end Sys2Proof.Machine
end

