-- ==== Sys2Proof/Machine/Collected.lean ====
section
/-! DEFINITION. The end of a collection at 2 Tc of idle time (10, section 10.2): the receiver judges what it has
collected. -/
namespace Sys2Proof.Machine

/-- The header of the characters of a whole frame, lead character first (Table 11-1). -/
def headerOf (line : Line) (characters : List Byte) : Header :=
  let at_ (i : Nat) : Byte := characters.getD i 0
  { line := line, source := (at_ 1).setWidth 5, seq := at_ 2, order := at_ 3 }

/-- The body of a STATUS in the characters of its frame (Table 11-3). -/
def statusBodyOf (characters : List Byte) : StatusBody :=
  let at_ (i : Nat) : Byte := characters.getD i 0
  { state := at_ 4, flags := at_ 5, lead := at_ 6 ++ at_ 7, strides := at_ 8 ++ at_ 9, reasons := at_ 10, reach := at_ 11,
    cause := at_ 12, origin := at_ 13, actionDirection := at_ 14, pace := at_ 15 }

/-- A good frame in collection is taken as what its kind code says (Table 11-2). -/
def State.takeCollected (s : State) (line : Line) (characters : List Byte) : State :=
  let at_ (i : Nat) : Byte := characters.getD i 0
  let h := headerOf line characters
  match (at_ 1).toNat / 32 with
  | 0 => s.receiveStatus h (statusBodyOf characters)
  | 1 => s.receiveOrder h (at_ 4) (at_ 5) (at_ 6)
  | 2 => s.receiveHold h (at_ 4) (at_ 5)
  | 3 => s.receiveFree h
  | 4 => s.receiveAsk h (at_ 4) (at_ 5) (at_ 6)
  | _ => s.receiveAnswer h

/-- RECEIVER_IDLE (R149, R157): the idle time of a line reaches 2 Tc. With no frame in collection, or the station's own,
the receiver is IDLE and seize detection ARMED. A frame of another station in collection ends and is judged (log 27):
one that fails is counted as FRAME_CHECK_FAILED counts it, a good one is taken as its own command takes it. -/
def execReceiverIdle (line : Line) (s : State) : Host.Outcome State Fault Refusal :=
  let y := s.line.lineState line
  if s.collecting = false then .next s
  else if y.receiver = .collecting ∧ y.ownFrame = false then
    match checkFrame y.characters with
    | some f => .next (s.dropFailed line f)
    | none => .next (s.takeCollected line y.characters)
  else .next (s.modifyLine line LineState.endFrame)

end Sys2Proof.Machine
end

