-- ==== Sys2Proof/Machine/Drive.lean ====
section
/-! DEFINITION. The timers of Drive Control, the lamp's blink group, and the tick of local time (01, 00 section 6.3). -/
namespace Sys2Proof.Machine

/-- CONTACTOR_REST_END (R3): the rest has run out (log 1): RESTED, and the state is settled again. -/
def execContactorRestEnd (s : State) : Host.Outcome State Fault Refusal :=
  if s.inReset = false ∧ s.drive.rest = .resting 0 then
    .next (s.setDrive { s.drive with rest := .rested }).settle
  else .next s

/-- DWELL_TIMER_EXPIRY (R6, R8): from DWELL to MUSTER, when the dwell has run out. A dwell that a reversal has restarted
has not (R6). -/
def execDwellTimerExpiry (s : State) : Host.Outcome State Fault Refusal :=
  if s.drive.state = .dwell ∧ s.drive.dwellTimer = some 0 then
    let t := s.setDrive { s.drive with dwellTimer := none }
    if t.topTier = none then .next t.enterMuster else .next t.settle
  else .next s

/-- The next switching of a blink group of `count` blinks (R22): on and off in turn, 0.5 s each, the last off lasting
2.0 s longer. -/
def DriveControl.blink (d : DriveControl) (count : Nat) : DriveControl :=
  let phase := (d.blinkPhase + 1) % (2 * count)
  { d with blinkPhase := phase, lamp := decide (phase % 2 = 0),
           blinkTimer := some (if phase + 1 = 2 * count then 25 else 5) }

/-- LAMP_BLINK_STEP (R22): only in OFFLINE with a cause set, at the end of a switching time. -/
def execLampBlinkStep (s : State) : Host.Outcome State Fault Refusal :=
  if s.drive.state = .offline ∧ s.drive.blinkTimer = some 0 then
    match s.loader.offlineCause with
    | some cause => .next (s.setDrive (s.drive.blink cause.blinkCount))
    | none => .next s
  else .next s

/-- Drive Control in a tenth of a second: the rest counts down in every drive state (R3), the dwell in DWELL (R6). -/
def DriveControl.tick (d : DriveControl) : DriveControl :=
  { d with
    rest := match d.rest with
      | .resting n => .resting (n - 1)
      | .rested => .rested
    dwellTimer := countDown d.dwellTimer
    blinkTimer := countDown d.blinkTimer }

/-- The Stride Monitor in a tenth of a second: its timers, and the run time while the RUN output is on (R70). -/
def StrideMonitor.tick (m : StrideMonitor) (running : Bool) : StrideMonitor :=
  { m with stallTimer := countDown m.stallTimer, retryPause := countDown m.retryPause,
           coastWindow := countDown m.coastWindow, runTime := if running then satInc m.runTime else m.runTime }

/-- The Pace Timer in a tenth of a second (R96): the position advances while RUNNING, up to the period. -/
def PaceTimer.tick (p : PaceTimer) (period : Nat) : PaceTimer :=
  if p.running then { p with position := min (p.position + 1) period } else p

/-- The age of a record that is CURRENT, STALE or LOST advances; that of an ABSENT one stays 0 (R113). -/
def RosterRecord.tick (r : RosterRecord) : RosterRecord :=
  if r.presence = .absent then r else { r with age := satInc r.age }

/-- The roster in a tenth of a second: every record but the own ages (R104, R113). -/
def Roster.tick (r : Roster) (own : Position) : Roster :=
  { r with records := Vector.ofFn (fun i : Fin 32 =>
    if i = placeOf own then r.records.get i else (r.records.get i).tick) }

/-- The Halt Unit in a tenth of a second: the time the raw level has differed, up to the 0.2 s of R136. -/
def HaltUnit.tick (h : HaltUnit) : HaltUnit :=
  { h with differsFor := if h.rawSense = h.settledSense then 0 else min (h.differsFor + 1) 2 }

/-- The discard time of an ANSWER runs (R160). -/
def AnswerRequest.tick (a : AnswerRequest) : AnswerRequest := { a with discard := a.discard - 1 }

/-- A frame on the line: the discard time of an ANSWER runs on while it is being sent. -/
def Transmitter.tick (t : Transmitter) : Transmitter :=
  match t with
  | .released => .released
  | .seizing => .seizing
  | .sending f =>
    match f.kind with
    | .answer a => .sending { f with kind := .answer a.tick }
    | .claim _ => .sending f
    | .status => .sending f

/-- The Span Line Interface in a tenth of a second: quiet timers, report timer, discard times. -/
def SpanLine.tick (x : SpanLine) : SpanLine :=
  { x with lineA := { x.lineA with quietTimer := countDown x.lineA.quietTimer },
           lineB := { x.lineB with quietTimer := countDown x.lineB.quietTimer },
           reportTimer := countDown x.reportTimer, answerSlot := x.answerSlot.map AnswerRequest.tick,
           transmitter := x.transmitter.tick }

/-- Every block in a tenth of a second. -/
def State.tick (s : State) : State :=
  (((((((((s.setLocalTime (s.localTime + 1)).setDrive s.drive.tick).setSensor
    { s.sensor with sampleTimer := countDown s.sensor.sampleTimer }).setStride
      (s.stride.tick s.drive.runOutput)).setPace (s.pace.tick s.pacePeriod)).setRoster
        (if s.active then s.roster.tick s.own else s.roster)).setOrders
          { s.orders with musterTimer := countDown s.orders.musterTimer }).setHalt s.halt.tick).setLine s.line.tick)

/-- LOCAL_TIME_TICK (R113 and 00 section 6.3): local time, ages, run time and the pace position advance, and every
timer held in tenths has one tenth less. Local time does not run during a reset (R168). -/
def execLocalTimeTick (s : State) : Host.Outcome State Fault Refusal :=
  if s.inReset then .next s else .next s.tick

end Sys2Proof.Machine
end

