-- ==== Sys2Proof/Machine/Loop.lean ====
section
/-! DEFINITION. The loop sense input (09, section 9.2). -/
namespace Sys2Proof.Machine

/-- LOOP_SENSE_CHANGE (R136): a change of the raw level starts the measurement again. -/
def execLoopSenseChange (present : Bool) (s : State) : Host.Outcome State Fault Refusal :=
  if s.halt.rawSense = present then .next s
  else .next (s.setHalt { s.halt with rawSense := present, differsFor := 0 })

/-- The settled sense takes the other level. -/
def HaltUnit.settleSense (h : HaltUnit) : HaltUnit :=
  { h with settledSense := !h.settledSense, differsFor := 0 }

/-- A change of the settled sense reported (R136, R137): to the census, and a change to ABSENT as a loop loss. -/
def State.reportSense (s : State) : State :=
  let t := s.evaluateCensus
  if s.halt.settledSense then t else t.raiseHalt .loopOpen none

/-- LOOP_SENSE_SETTLED (R136): once the raw level has differed for 0.2 s the settled sense changes; the change is
reported once the checks have passed and outside OFFLINE. The sense is not measured during a reset. -/
def execLoopSenseSettled (s : State) : Host.Outcome State Fault Refusal :=
  if s.inReset = false ∧ s.halt.rawSense ≠ s.halt.settledSense ∧ s.halt.differsFor = 2 then
    let t := s.setHalt s.halt.settleSense
    if t.active then .next t.reportSense else .next t
  else .next s

end Sys2Proof.Machine
end

