-- ==== Sys2Proof/Machine/Pace.lean ====
section
/-! DEFINITION. The two boundaries of the pace period (06). -/
namespace Sys2Proof.Machine

/-- END_OF_ON_PART (R97): the position has reached the ON length, above 0 and below T, and the request becomes absent.
-/
def execEndOfOnPart (s : State) : Host.Outcome State Fault Refusal :=
  if s.pace.running = true ∧ 0 < s.pace.onLength ∧ s.pace.onLength < s.pacePeriod
      ∧ s.pace.onLength ≤ s.pace.position then
    let t := s.setPace { s.pace with request := false }
    if s.pace.request then .next t.settle else .next t
  else .next s

/-- END_OF_PERIOD (R97): the position has reached T, and a new period starts; a changed request is reported. -/
def execEndOfPeriod (s : State) : Host.Outcome State Fault Refusal :=
  if s.pace.running = true ∧ s.pacePeriod ≤ s.pace.position then
    let t := s.startPeriod
    if t.pace.request = s.pace.request then .next t else .next t.settle
  else .next s

end Sys2Proof.Machine
end

