-- ==== Sys2Proof/Machine/Sensor.lean ====
section
/-! DEFINITION. Bend sensing (03): the exchange with the bend sensor, its five results and their consequences, and the
five commands of the Sensor Port. -/
namespace Sys2Proof.Machine

/-- An exchange begins (R43, R44): select 0 is asserted and the sample timer restarted; the port waits for ready, or
shifts at once when ready is already asserted, clocking out the command byte and 16 zero bits (R45). -/
def State.beginExchange (s : State) (ready : Bool) : State :=
  let p := { s.sensor with select0 := true, receivedWord := none, pendingExpiry := false, readyPin := ready,
                           sampleTimer := some s.config.samplePeriod.toNat }
  if s.config.readyAsserted ready then
    s.setSensor { p with exchange := .shifting, readyTimer := none, clock := .running,
                         dataOut := [s.config.command, 0, 0] }
  else
    s.setSensor { p with exchange := .readyWait, readyTimer := some s.config.readyTimeout.toNat, clock := .low,
                         dataOut := [] }

/-- An exchange ends: select 0 is released with the clock low, and the port rests, or stops on OFFLINE with its timer
and pending expiry dropped (R54). -/
def SensorPort.endExchange (p : SensorPort) (offline : Bool) : SensorPort :=
  if offline then
    { p with select0 := false, clock := .low, readyTimer := none, dataOut := [], receivedWord := none,
             exchange := .stopped, sampleTimer := none, pendingExpiry := false }
  else { p with select0 := false, clock := .low, readyTimer := none, dataOut := [], exchange := .resting }

/-- A failure handled as in HALT mode (R51): the window is emptied, then a SENSOR halt is requested. -/
def State.sensorHalt (s : State) : State := (s.setGovernor s.governor.emptied).haltAfterWithdrawal .sensor

/-- The sensor fault mark is set and the SENSOR reason presented (R50, R53). -/
def State.markSensorFault (s : State) : State := (s.setSensor { s.sensor with faultMark := true }).reportSensor

/-- Both failure counts rise and the word is discarded (R48). -/
def SensorPort.countFailure (p : SensorPort) : SensorPort :=
  { p with failureTotal := satInc p.failureTotal, consecutiveFailures := satInc p.consecutiveFailures,
           receivedWord := none }

/-- The consequences of a failure by the sensor mode and the drive state (Table 3-3, R49 to R52); the counts have risen.
In SKIP mode R55 says that another halt taken first leaves the window empty, and R51 that a later failure in HALTED
empties it; R49, R52 and Table 3-3 keep it in HALTED, and the model does (log 29). -/
def State.failureConsequence (s : State) : State :=
  if s.isFollowing then
    match s.config.sensing with
    | .skip => if s.sensor.consecutiveFailures.toNat < 8 then s else s.sensorHalt
    | .retry => if s.sensor.consecutiveFailures.toNat < 5 then s.emptyWindow.markSensorFault else s.sensorHalt
    | .halt => s.sensorHalt
  else
    match s.config.sensing with
    | .skip => s
    | .retry => s.emptyWindow
    | .halt => s.emptyWindow

/-- A failed exchange (R48). -/
def State.failedExchange (s : State) : State := (s.setSensor s.sensor.countFailure).failureConsequence

/-- A good sample (R47): to the governor, the consecutive count to zero, the fault mark cleared and the SENSOR reason
withdrawn. -/
def State.goodSample (s : State) (bend : Int) : State :=
  let t := s.takeSample bend
  (t.setSensor { t.sensor with consecutiveFailures := 0, faultMark := false }).reportSensor

/-- A complete word is judged (R46): signature, then range. -/
def State.judgeWord (s : State) (word : BitVec 24) : State :=
  let bend := (word.extractLsb' 0 16).toInt
  if word.extractLsb' 16 8 ≠ s.config.signature then s.failedExchange
  else if bend < -1500 ∨ 1500 < bend then s.failedExchange
  else s.goodSample bend

/-- An exchange ends with a result (R43, R47, R48, R54): on OFFLINE the result is discarded; otherwise it is taken in
the present drive state, and a pending expiry begins the next exchange, with `next` the level of ready then. -/
def State.finishExchange (s : State) (result : State → State) (next : Bool) : State :=
  if s.drive.state = .offline then s.setSensor (s.sensor.endExchange true)
  else
    let t := result (s.setSensor (s.sensor.endExchange false))
    if s.sensor.pendingExpiry then t.beginExchange next else t

/-- SAMPLE_TIMER_EXPIRY (R43), when the timer has run out. -/
def execSampleTimerExpiry (ready : Bool) (s : State) : Host.Outcome State Fault Refusal :=
  if s.sensor.sampleTimer = some 0 then
    match s.sensor.exchange with
    | .resting => .next (s.beginExchange ready)
    | .readyWait => .next (s.setSensor { s.sensor with sampleTimer := none, pendingExpiry := true })
    | .shifting => .next (s.setSensor { s.sensor with sampleTimer := none, pendingExpiry := true })
    | .stopped => .next s
    | .configRead => .next s
  else .next s

/-- READY_ASSERT (R44): the wait ends and the shift begins. -/
def execReadyAssert (s : State) : Host.Outcome State Fault Refusal :=
  if s.sensor.exchange = .readyWait then
    .next (s.setSensor { s.sensor with exchange := .shifting, readyTimer := none, clock := .running,
                                       dataOut := [s.config.command, 0, 0],
                                       readyPin := s.config.readyAsserted true })
  else .next s

/-- READY_TIMEOUT (R44). -/
def execReadyTimeout (nextReady : Bool) (s : State) : Host.Outcome State Fault Refusal :=
  if s.sensor.exchange = .readyWait then .next (s.finishExchange State.failedExchange nextReady) else .next s

/-- SHORT (R45): ready has dropped inside the shift. -/
def execShort (nextReady : Bool) (s : State) : Host.Outcome State Fault Refusal :=
  if s.sensor.exchange = .shifting then
    let t := s.setSensor { s.sensor with readyPin := !s.config.readyAsserted true }
    .next (t.finishExchange State.failedExchange nextReady)
  else .next s

/-- SHIFT_COMPLETE (R46). -/
def execShiftComplete (word : BitVec 24) (nextReady : Bool) (s : State) : Host.Outcome State Fault Refusal :=
  if s.sensor.exchange = .shifting then
    let t := s.setSensor { s.sensor with receivedWord := some word }
    .next (t.finishExchange (fun u => u.judgeWord word) nextReady)
  else .next s

end Sys2Proof.Machine
end

