-- ==== Sys2Proof/Machine/Reset.lean ====
section
/-! DEFINITION. The two resets, the start-up reads and the configuration checks (12). -/
namespace Sys2Proof.Machine

/-- The Stride Monitor in a reset (R57): the drive counters and the stride count are kept across the reset pin. The
level of its input pin is not the part's to change. -/
def StrideMonitor.inReset (m : StrideMonitor) (keep : Bool) : StrideMonitor :=
  if keep then
    { StrideMonitor.reset with wheelHigh := m.wheelHigh, strideCount := m.strideCount, runTime := m.runTime,
                               stallEvents := m.stallEvents, creepPulses := m.creepPulses }
  else { StrideMonitor.reset with wheelHigh := m.wheelHigh }

/-- The Halt Unit in a reset (R134): the record is kept across the reset pin. -/
def HaltUnit.inReset (h : HaltUnit) (keep : Bool) : HaltUnit :=
  { HaltUnit.reset with rawSense := h.rawSense, record := if keep then h.record else HaltRecord.empty }

/-- A reset begins (R168): everything in progress ends at once and every block takes its reset values; `keep` is the
reset pin, which keeps the retention set. The queue and the model's own counter are not the part's. Local time stands at
0 while the reset lasts (log 2). -/
def State.beginReset (s : State) (keep : Bool) : State :=
  { pending := s.pending, resets := s.resets, localTime := 0, drive := DriveControl.reset,
    governor := Governor.reset, sensor := { SensorPort.reset with readyPin := s.sensor.readyPin },
    stride := s.stride.inReset keep, holds := HoldTable.reset, claim := ClaimUnit.reset, pace := PaceTimer.reset,
    roster := Roster.reset, orders := OrderUnit.reset, halt := s.halt.inReset keep, line := SpanLine.reset,
    loader := Loader.reset, choices := s.choices }

/-- A reset ends (R3, R169): the straps are read, the contactor rest starts, local time counts from 0, and the port
begins the configuration read on select 1: the read byte 0xA5, the start address, then data out held low for 32
bytes. -/
def State.endReset (s : State) (straps : Position) : State :=
  (((s.setLoader { s.loader with own := straps }).setDrive { s.drive with rest := .resting 10 }).setLocalTime 0).setSensor
    { s.sensor with exchange := .configRead, select1 := true, clock := .running,
                    dataOut := 0xA5 :: 0x00 :: List.replicate 32 0 }

/-- POWER_ON_RESET (R168): the retention set is cleared. -/
def execPowerOnReset (s : State) : Host.Outcome State Fault Refusal :=
  .next ((s.beginReset false).setResets { s.resets with powerOn := true })

/-- POWER_ON_RESET_END (R169). While the reset pin is asserted the pin's reset goes on (log 8). -/
def execPowerOnResetEnd (straps : Position) (s : State) : Host.Outcome State Fault Refusal :=
  if s.resets.powerOn then
    let t := s.setResets { s.resets with powerOn := false }
    if s.resets.pin then .next t else .next (t.endReset straps)
  else .next s

/-- RESET_PIN_ASSERT (R168): the retention set is kept. -/
def execResetPinAssert (s : State) : Host.Outcome State Fault Refusal :=
  .next ((s.beginReset true).setResets { s.resets with pin := true })

/-- RESET_PIN_RELEASE (R169). While a power-on reset is in progress that reset goes on (log 8). -/
def execResetPinRelease (straps : Position) (s : State) : Host.Outcome State Fault Refusal :=
  if s.resets.pin then
    let t := s.setResets { s.resets with pin := false }
    if s.resets.powerOn then .next t else .next (t.endReset straps)
  else .next s

/-- The roster at the end of the checks (R102 to R104): the Expected fields from N, and the own record CURRENT. -/
def Roster.atChecks (r : Roster) (own : Position) (towers : Nat) : Roster :=
  let marked := { r with records := Vector.ofFn (fun i : Fin 32 =>
    { r.records.get i with expected := decide (i.val ≤ towers) }) }
  marked.put own { marked.recordOf own with presence := .current, age := 0, missed := 0, accepted := 0,
                                            lastSeq := some 255 }

/-- The checks fail (R172): OFFLINE stays, the cause is set and blinks, the port is STOPPED, and the receivers collect
at 19200 bit/s. -/
def State.checksFail (s : State) (cause : OfflineCause) : State :=
  (((s.setLoader { s.loader with state := .failed, offlineCause := some cause }).setSensor
    { s.sensor with exchange := .stopped }).setLine { s.line with lineRate := .bps19200 }).setDrive
      (s.drive.setLamp .offline (some cause))

/-- The configuration handed to every block (R171): the governor's levels and window size, the roster, the report
timer, and the line rate of the receivers. -/
def State.handOver (s : State) : State :=
  (((s.setLoader { s.loader with state := .passed }).setGovernor
    { s.governor with levels := s.config.levelSet, size := windowSize s.config.windowCode }).setRoster
      (s.roster.atChecks s.own s.towers)).setLine
        { s.line with reportTimer := some s.config.reportPeriod, lineRate := s.config.lineRate }

/-- The Sensor Port at the end of the checks (R41, R43): STOPPED at the pacer; at a follower the first exchange begins.
-/
def State.beginSensing (s : State) (ready : Bool) : State :=
  if s.isPacer then s.setSensor { s.sensor with exchange := .stopped } else s.beginExchange ready

/-- The checks pass (R171): the configuration is handed to every block, the first exchange begins at a follower, and
Drive Control settles to IDLE. -/
def State.checksPass (s : State) (ready : Bool) : State := (s.handOver.beginSensing ready).settle

/-- CONFIG_READ_COMPLETE (R169 to R172): the record and its CRC field are taken, select 1 is released, and the checks
of Table 12-2 decide. -/
def execConfigReadComplete (image : List Byte) (ready : Bool) (s : State) : Host.Outcome State Fault Refusal :=
  if s.inReset = false ∧ s.loader.state = .reading ∧ s.sensor.exchange = .configRead then
    let t := (s.setLoader { s.loader with state := .checking, config := ConfigRecord.ofBytes image,
                                          crc := crcFieldOf image }).setSensor
      { s.sensor with select1 := false, clock := .low, dataOut := [] }
    match configFailure t.loader.config t.loader.crc t.loader.own with
    | some cause => .next (t.checksFail cause)
    | none => .next (t.checksPass ready)
  else .next s

end Sys2Proof.Machine
end

