-- ==== Sys2Proof/WellFormed.lean ====
section
/-! DEFINITION. Which commands are well formed: the checks a row's own name makes on its operands. -/
namespace Sys2Proof

/-- Whether an ASK for this item and argument has a listed item and an argument in range (Table 11-5). -/
def askInRange (item argument : Byte) : Bool :=
  match item.toNat with
  | 1 => true
  | 2 => argument.toNat ≤ 32
  | 3 => argument.toNat ≤ 1
  | 4 => true
  | 5 => true
  | 6 => argument.toNat ≤ 31
  | 7 => true
  | 8 => true
  | 9 => argument.toNat ≤ 1
  | _ => false

/-- The check on each command. A row named for an item has that item's argument in range (the others are
ASK_UNKNOWN_ITEM), the read of the configuration memory brings 32 bytes (R169), and the order row for undefined
actions has one. Every other command is well formed for every operand its type admits. -/
def Instr.wellFormed : Instr → Bool
  | .configReadComplete image _ => image.length == 32
  | .rosterView _ _ argument => askInRange 2 argument
  | .lineCounts _ _ argument => askInRange 3 argument
  | .holdView _ _ argument => askInRange 6 argument
  | .lineFaults _ _ argument => askInRange 9 argument
  | .askUnknownItem _ _ item argument => !askInRange item argument
  | .orderUndefinedAction _ action _ _ => 3 ≤ action.toNat
  | .powerOnReset => true
  | .powerOnResetEnd _ => true
  | .resetPinAssert => true
  | .resetPinRelease _ => true
  | .contactorRestEnd => true
  | .dwellTimerExpiry => true
  | .lampBlinkStep => true
  | .localTimeTick => true
  | .sampleTimerExpiry _ => true
  | .readyAssert => true
  | .readyTimeout _ => true
  | .short _ => true
  | .shiftComplete _ _ => true
  | .wheelInputChange _ => true
  | .wheelPulse => true
  | .pulseFilterRelease => true
  | .stallTimerExpiry => true
  | .retryPauseEnd => true
  | .coastWindowExpiry => true
  | .endOfOnPart => true
  | .endOfPeriod => true
  | .staleAgePassed _ => true
  | .lostLimitPassed _ => true
  | .musterTimerExpiry => true
  | .loopSenseChange _ => true
  | .loopSenseSettled => true
  | .characterReceived _ _ => true
  | .receiverIdle _ => true
  | .frameCheckFailed _ => true
  | .statusFrame _ _ => true
  | .runOrder _ _ _ => true
  | .stopOrder _ _ _ => true
  | .clearOrder _ _ _ => true
  | .holdFrame _ _ _ => true
  | .freeFrame _ => true
  | .answerFrame _ _ _ _ => true
  | .haltRecord _ _ _ => true
  | .driveCounts _ _ _ => true
  | .configDigest _ _ _ => true
  | .orderView _ _ _ => true
  | .haltPoint _ _ _ => true
  | .reportTimerExpiry => true
  | .transmissionStart _ => true
  | .transmissionComplete => true
  | .clash => true
  | .quietTimerExpiry _ => true
  | .seizeDetected _ => true
  | .seizeEnd => true
  | .answerDiscard => true

end Sys2Proof
end

