-- ==== Sys2Proof/Machine/Transmit.lean ====
section
/-! DEFINITION. Sending: the access gap, the frames and answers as built, completion, clashes, the end of a seize, the
report timer and the discard of answers (10, sections 10.4 to 10.8; 11). -/
namespace Sys2Proof.Machine

/-! ### What frames and answers carry -/

/-- The halt cause of STATUS (R142): the record's while the latch is set, else none. -/
def State.statusCause (s : State) : Byte := if s.halt.latched then causeField s.halt.record.cause else 0

/-- The halt origin of STATUS (R142). -/
def State.statusOrigin (s : State) : Byte := if s.halt.latched then originField s.halt.record.origin else 0xFF

/-- The body of a STATUS (Table 11-3, R163). While the order is unset the Order Unit holds STOP, FORWARD and pace 0. -/
def State.statusBody (s : State) : List Byte :=
  [s.drive.state.code,
   statusFlags s.orders.unset s.halt.settledSense s.governor.lead.isSome s.ready s.isPacer]
    ++ bytes16 (leadField (s.governor.lead.getD 0)) ++ bytes16 s.stride.strideCount
    ++ [s.claim.reasons.toByte, BitVec.ofNat 8 s.claim.reach, s.statusCause, s.statusOrigin,
        (s.orders.action.code <<< 4) ||| s.orders.direction.code, BitVec.ofNat 8 s.orders.pace]

/-- The reported fields of the own record: what a STATUS built now would carry (R104). -/
def State.ownReported (s : State) : Reported :=
  { state := s.drive.state.code, order := s.orderInForce, ready := s.ready, cause := s.statusCause,
    origin := s.statusOrigin }

/-- The record of a position as it is read: the own record's reported fields are the station's own state (R104). -/
def State.rosterRecord (s : State) (p : Position) : RosterRecord :=
  if p = s.own then { s.roster.recordOf p with reported := some s.ownReported } else s.roster.recordOf p

/-- How many expected positions other than the own have this presence (R116). -/
def State.countPresence (s : State) (x : Presence) : Nat :=
  (allPositions.filter (fun p => decide (p.toNat ≤ s.towers) && decide (p ≠ s.own)
    && decide ((s.roster.recordOf p).presence = x))).length

/-- ROSTER_VIEW of one record (Table 11-6, R116, R166). -/
def RosterRecord.viewBytes (r : RosterRecord) : List Byte :=
  [r.presence.code, satOfNat 8 (r.age.toNat / 10), r.lastSeq.getD 0, r.missed,
   (r.reported.map Reported.state).getD 0xFF, (r.reported.bind Reported.order).getD 0xFF] ++ bytes16 r.accepted

/-- ROSTER_VIEW of the totals (argument 32). -/
def State.rosterTotals (s : State) : List Byte :=
  bytes16 s.roster.notAcceptedTotal ++ bytes16 s.roster.duplicateTotal ++ bytes16 s.roster.strangerTotal
    ++ [BitVec.ofNat 8 (s.countPresence .current), BitVec.ofNat 8 (s.countPresence .lost)]

/-- HALT_RECORD (Table 11-6). -/
def HaltRecord.recordBytes (r : HaltRecord) : List Byte :=
  [causeField r.cause, originField r.origin, causeField r.remoteCause, r.later.toByte, r.order,
   r.timeTag.extractLsb' 16 8, r.timeTag.extractLsb' 8 8, r.timeTag.extractLsb' 0 8]

/-- HALT_POINT (Table 11-6). -/
def HaltUnit.pointBytes (h : HaltUnit) : List Byte :=
  bytes16 (leadField h.record.lead) ++ bytes16 h.record.strides
    ++ [h.record.priorState.code, h.record.timeTag.extractLsb' 24 8, h.statusBits, 0]

/-- The line that an argument names (R161). -/
def lineOfArgument (argument : Byte) : Line := if argument = 0 then .a else .b

/-- LINE_COUNTS (Table 11-6, R166). -/
def SpanLine.countBytes (x : SpanLine) (l : Line) : List Byte :=
  let c := (x.lineState l).counters
  bytes16 c.good ++ bytes16 c.crcBad ++ bytes16 c.clashes ++ [satOfNat 8 c.seizes.toNat, x.lineByte]

/-- LINE_FAULTS (Table 11-6). -/
def SpanLine.faultBytes (x : SpanLine) (l : Line) : List Byte :=
  let c := (x.lineState l).counters
  bytes16 c.framing ++ bytes16 c.format ++ bytes16 c.noisy
    ++ [x.answersDiscarded, BitVec.ofNat 8 x.consecutiveClashes]

/-- DRIVE_COUNTS (Table 11-6). -/
def State.driveBytes (s : State) : List Byte :=
  [s.stride.runTime.extractLsb' 16 8, s.stride.runTime.extractLsb' 8 8, s.stride.runTime.extractLsb' 0 8,
   s.stride.stallEvents] ++ bytes16 s.stride.creepPulses ++ bytes16 s.sensor.failureTotal

/-- CONFIG_DIGEST (Table 11-6). -/
def Loader.digestBytes (l : Loader) : List Byte :=
  bytes16 l.crc ++ [l.config.layoutVersion, l.config.towers, l.own.setWidth 8, l.config.levelTable,
    l.config.sensorMode, l.config.stallMode]

/-- HOLD_VIEW (R81). -/
def State.holdBytes (s : State) (source : Position) : List Byte :=
  match s.holds.recordOf source with
  | none => [0, 0, 0, 0, 0, 0, s.holds.unappliedHold, s.holds.unmatchedFree]
  | some r =>
    [1, r.reasons.toByte, r.reach, r.order] ++ bytes16 (satOfNat 16 (s.localTime - r.placed).toNat)
      ++ [s.holds.unappliedHold, s.holds.unmatchedFree]

/-- The census blocker byte of ORDER_VIEW (R133). -/
def OrderUnit.blockerByte (o : OrderUnit) : Byte :=
  if o.counting then
    match o.blocker with
    | none => 0xFF
    | some .loop => 0x41
    | some .ownReadiness => 0x40
    | some (.position p) => p.setWidth 8
  else 0xFF

/-- ORDER_VIEW (R133): the muster time in whole seconds, rounded up. -/
def OrderUnit.viewBytes (o : OrderUnit) : List Byte :=
  [if o.unset then 1 else 0, if o.unset then 0 else o.number, o.action.code, o.direction.code,
   BitVec.ofNat 8 o.pace, BitVec.ofNat 8 ((o.musterTimer.getD 0 + 9) / 10), o.blockerByte, o.refused]

/-- The eight data bytes of an ANSWER (Table 11-6, R167): all 0xFF for an unknown item or an argument out of range. -/
def State.answerData (s : State) (item argument : Byte) : List Byte :=
  if askInRange item argument then
    match item.toNat with
    | 1 => s.halt.record.recordBytes
    | 2 => if argument = 32 then s.rosterTotals else (s.rosterRecord (argument.setWidth 5)).viewBytes
    | 3 => s.line.countBytes (lineOfArgument argument)
    | 4 => s.driveBytes
    | 5 => s.loader.digestBytes
    | 6 => s.holdBytes (argument.setWidth 5)
    | 7 => s.orders.viewBytes
    | 8 => s.halt.pointBytes
    | _ => s.line.faultBytes (lineOfArgument argument)
  else List.replicate 8 0xFF

/-! ### Building a frame (R153, R163) -/

/-- The sequence number of the next attempt: one above the last the station completed (R104, R153). -/
def State.nextSequence (s : State) : Byte := (s.roster.recordOf s.own).lastSeq.getD 255 + 1

/-- The kind code of a frame (Table 11-2). -/
def FrameKind.code : FrameKind → Nat
  | .status => 0
  | .claim .hold => 2
  | .claim .free => 3
  | .answer _ => 5

/-- The body a frame of this kind carries now. -/
def State.bodyOf (s : State) (k : FrameKind) : List Byte :=
  match k with
  | .status => s.statusBody
  | .claim .hold => [s.claim.reasons.toByte, BitVec.ofNat 8 s.claim.reach]
  | .claim .free => []
  | .answer r => [r.item, r.argument] ++ s.answerData r.item r.argument

/-- A frame built from the state as it stands (R153, R163). -/
def State.buildFrame (s : State) (k : FrameKind) : SentFrame :=
  { kind := k, seq := s.nextSequence, order := s.headerOrder,
    characters := assembleFrame k.code s.own s.nextSequence s.headerOrder (s.bodyOf k) }

/-! ### Access (R152) -/

/-- The head of the queue: the first slot that holds a frame, in the order claim, ANSWER, STATUS (R158). -/
def SpanLine.head (x : SpanLine) : Option FrameKind :=
  match x.claimSlot, x.answerSlot, x.statusSlot with
  | some c, _, _ => some (.claim c)
  | none, some r, _ => some (.answer r)
  | none, none, true => some .status
  | none, none, false => none

/-- The effective access gap of a frame in character times (R152): its class, the own position, the yield bias. -/
def State.accessGap (s : State) (k : FrameKind) : Nat :=
  (match k with
    | .claim _ => 3
    | .answer _ => 3
    | .status => 36) + s.own.toNat + (if s.line.yieldBias then 68 else 0)

/-- The slot of a frame is left as its sending begins (R158). -/
def SpanLine.takeFromSlot (x : SpanLine) (k : FrameKind) : SpanLine :=
  match k with
  | .claim _ => { x with claimSlot := none }
  | .answer _ => { x with answerSlot := none }
  | .status => { x with statusSlot := false }

/-- Sending begins (R153): the frame leaves its slot, the transmitter sends it, and the send line is no longer idle. -/
def SpanLine.startSending (x : SpanLine) (f : SentFrame) : SpanLine :=
  let y := { x.takeFromSlot f.kind with transmitter := .sending f, gapFromClash := false }
  y.setLineState y.sendLine { y.lineState y.sendLine with idleTime := 0 }

/-- The time the access gap is compared with (R152, R154): how long the send line has been idle, and for the first
attempt after a clash at most the time since the clash, whatever the line. -/
def SpanLine.gapTime (x : SpanLine) (times : GapTimes) : Nat :=
  if x.gapFromClash then min times.idle times.sinceClash else times.idle

/-- TRANSMISSION_START (R152, R153): from RELEASED outside OFFLINE, when the send line has been idle for the gap of the
head of the queue. -/
def execTransmissionStart (times : GapTimes) (s : State) : Host.Outcome State Fault Refusal :=
  match s.line.head with
  | none => .next s
  | some k =>
    if s.active = true ∧ s.line.transmitter = .released ∧ s.accessGap k ≤ s.line.gapTime times then
      .next (s.setLine (s.line.startSending (s.buildFrame k)))
    else .next s

/-! ### Completion (R153) -/

/-- The clash count of a frame's slot becomes 0. -/
def SpanLine.clearClashes (x : SpanLine) (k : FrameKind) : SpanLine :=
  match k with
  | .claim _ => { x with claimClashes := 0 }
  | .answer _ => { x with answerClashes := 0 }
  | .status => { x with statusClashes := 0 }

/-- The interface at a completion: counts cleared, the yield bias set, the report timer started by a STATUS (R159), and
RELEASED, with a waiting change of send line made. -/
def SpanLine.complete (x : SpanLine) (f : SentFrame) (period : Nat) : SpanLine :=
  let y := { x.clearClashes f.kind with consecutiveClashes := 0, yieldBias := true }
  let y := if f.kind = .status then { y with reportTimer := some period } else y
  y.release

/-- The announced mark at a completion (R86): set by a HOLD under the order still in force, cleared by a FREE. -/
def State.announcedAfter (s : State) (f : SentFrame) : Bool :=
  match f.kind with
  | .claim .hold => if s.orderInForce = some f.order then true else s.claim.announced
  | .claim .free => false
  | .answer _ => s.claim.announced
  | .status => s.claim.announced

/-- The own record takes a completed frame (R104). -/
def State.recordOwnFrame (s : State) (f : SentFrame) : State :=
  let r := s.roster.recordOf s.own
  s.setRoster (s.roster.put s.own { r with lastSeq := some f.seq, accepted := satInc r.accepted })

/-- TRANSMISSION_COMPLETE (R153). -/
def execTransmissionComplete (s : State) : Host.Outcome State Fault Refusal :=
  match s.line.transmitter with
  | .sending f =>
    let t := (s.setLine (s.line.complete f s.config.reportPeriod)).setClaim
      { s.claim with announced := s.announcedAfter f }
    .next (t.recordOwnFrame f)
  | .released => .next s
  | .seizing => .next s

/-! ### Clashes (R154, R155) -/

/-- The slot of a frame already holds a newer one. -/
def SpanLine.slotTaken (x : SpanLine) (k : FrameKind) : Bool :=
  match k with
  | .claim _ => x.claimSlot.isSome
  | .answer _ => x.answerSlot.isSome
  | .status => x.statusSlot

/-- The clash count of a frame's slot. -/
def SpanLine.slotClashes (x : SpanLine) (k : FrameKind) : Nat :=
  match k with
  | .claim _ => x.claimClashes
  | .answer _ => x.answerClashes
  | .status => x.statusClashes

/-- The clash count of a frame's slot written. -/
def SpanLine.setSlotClashes (x : SpanLine) (k : FrameKind) (n : Nat) : SpanLine :=
  match k with
  | .claim _ => { x with claimClashes := n }
  | .answer _ => { x with answerClashes := n }
  | .status => { x with statusClashes := n }

/-- A clashed frame goes back to its slot (R154), unless a newer frame stands there; an ANSWER whose discard time has
run out is removed and counted (R160), also when a newer ANSWER stands, where R154 and R140 would count nothing: the
model's choice (log 36). A claim frame returns also when the claim has been emptied under it (R87), where R88 would let
no HOLD wait (log 31). -/
def SpanLine.returnClashed (x : SpanLine) (k : FrameKind) : SpanLine :=
  match k with
  | .claim c => { x with claimSlot := some (x.claimSlot.getD c) }
  | .answer r =>
    if r.discard = 0 then { x with answersDiscarded := satInc x.answersDiscarded }
    else { x with answerSlot := some (x.answerSlot.getD r) }
  | .status => { x with statusSlot := true }

/-- The clash counts rise (R154): the send line's, the slot's (0 again when a newer frame stands) and the consecutive
one. What has been collected on the send line is no longer the station's own frame, and the next access gap is measured
from this clash. -/
def SpanLine.countClash (x : SpanLine) (k : FrameKind) : SpanLine :=
  let y := x.setLineState x.sendLine
    { x.lineState x.sendLine with
      ownFrame := false
      counters := { (x.lineState x.sendLine).counters with
        clashes := satInc (x.lineState x.sendLine).counters.clashes } }
  { y.setSlotClashes k (if x.slotTaken k then 0 else x.slotClashes k + 1) with
    consecutiveClashes := x.consecutiveClashes + 1, gapFromClash := true }

/-- The first limit of R154: at the slot's third clash the send line changes, or the count returns to 0 when the
alternate line is disabled. -/
def SpanLine.judgeSlotLimit (x : SpanLine) (k : FrameKind) (alternate : Bool) : SpanLine :=
  if 3 ≤ x.slotClashes k then
    if alternate then x.changeSendLine else x.setSlotClashes k 0
  else x

/-- CLASH (R154): the station stops driving, the counts rise, the frame returns to its slot, and the two limits are
judged; the eighth consecutive clash is a position conflict. -/
def execClash (s : State) : Host.Outcome State Fault Refusal :=
  match s.line.transmitter with
  | .sending f =>
    let x := ((s.line.countClash f.kind).returnClashed f.kind).release
    let t := s.setLine (x.judgeSlotLimit f.kind (decide (s.config.alternateLine = 1)))
    .next (if 8 ≤ t.line.consecutiveClashes then t.positionConflict else t)
  | .released => .next s
  | .seizing => .next s

/-! ### Seize end, report timer, discard -/

/-- A line at the release of a seize of the station's own (R156): its idle time, and a dominant run that another station
drives on, are measured from now. -/
def LineState.afterOwnSeize (y : LineState) : LineState := { y with idleTime := 0, dominantRun := 0 }

/-- SEIZE_END (R156): both lines are released. -/
def execSeizeEnd (s : State) : Host.Outcome State Fault Refusal :=
  match s.line.transmitter with
  | .seizing =>
    .next (s.setLine { s.line with transmitter := .released, lineA := s.line.lineA.afterOwnSeize,
                                   lineB := s.line.lineB.afterOwnSeize })
  | .released => .next s
  | .sending _ => .next s

/-- REPORT_TIMER_EXPIRY (R159), when the timer has run out: a STATUS is requested; the timer is stopped until that
STATUS completes. -/
def execReportTimerExpiry (s : State) : Host.Outcome State Fault Refusal :=
  if s.line.reportTimer = some 0 then .next (s.setLine { s.line with reportTimer := none }).requestStatus
  else .next s

/-- ANSWER_DISCARD (R160): a waiting ANSWER whose discard time has run out is removed and counted. One whose
transmission has begun is not discarded. -/
def execAnswerDiscard (s : State) : Host.Outcome State Fault Refusal :=
  match s.line.answerSlot with
  | some r =>
    if r.discard = 0 then
      .next (s.setLine { s.line with answerSlot := none, answersDiscarded := satInc s.line.answersDiscarded })
    else .next s
  | none => .next s

end Sys2Proof.Machine
end

