-- ==== Sys2Proof/Machine/Wheel.lean ====
section
/-! DEFINITION. Wheel pulses, stalls, retries, coast and creep (04). -/
namespace Sys2Proof.Machine

/-- WHEEL_INPUT_CHANGE (R59): a change of level restarts the measurement. A level that is not a change does nothing. -/
def execWheelInputChange (high : Bool) (s : State) : Host.Outcome State Fault Refusal :=
  if s.stride.wheelHigh = high then .next s
  else .next (s.setStride { s.stride with wheelHigh := high, heldFor := 0 })

/-- An accepted pulse at the filter and the stride count (R59, R60): up in FORWARD, down in REVERSE, modulo 65536. -/
def StrideMonitor.acceptPulse (m : StrideMonitor) (d : Direction) : StrideMonitor :=
  { m with filterAsserted := true, wheelHigh := true, heldFor := 20,
           strideCount := match d with
             | .forward => m.strideCount + 1
             | .reverse => m.strideCount - 1 }

/-- A pulse while the contactor view is ON (R61): it counts toward the segment and restarts the stall timer. -/
def StrideMonitor.segmentPulse (m : StrideMonitor) (c : ConfigRecord) : StrideMonitor :=
  { m with segmentPulses := min (m.segmentPulses + 1) 4,
           stallTimer := if c.stalling = .off then m.stallTimer else some (10 * c.stallTime.toNat) }

/-- A stall clear (R66): the fourth pulse of a segment clears the consecutive count and the mark, and the STALL reason
is withdrawn. -/
def State.stallClear (s : State) : State :=
  (s.setStride { s.stride with consecutiveStalls := 0, stallMark := false }).reportStall

/-- A pulse of the run segment (R61, R66). -/
def State.pulseOn (s : State) : State :=
  let t := s.setStride (s.stride.segmentPulse s.config)
  if s.stride.segmentPulses = 3 then t.stallClear else t

/-- The pulse is coast (R68): inside the coast window and the allowance. -/
def State.isCoast (s : State) : Bool :=
  s.stride.coastWindow.isSome && decide (s.stride.coastCount < s.config.coastAllowance.toNat)

/-- A creep pulse counted (R69). -/
def StrideMonitor.creepPulse (m : StrideMonitor) : StrideMonitor :=
  { m with creepCount := satInc m.creepCount, creepPulses := satInc m.creepPulses }

/-- A creep pulse (R69): a CREEP halt is requested when the count becomes exactly one more than the limit. -/
def State.creep (s : State) : State :=
  let t := s.setStride s.stride.creepPulse
  if s.stride.creepCount.toNat = s.config.creepLimit.toNat then t.raiseHalt .creep (some s.own) else t

/-- A pulse with the contactor view OFF (R58, R68): not classed in mode OFF, else coast or creep. -/
def State.pulseOff (s : State) : State :=
  if s.config.stalling = .off then s
  else if s.isCoast then s.setStride { s.stride with coastCount := s.stride.coastCount + 1 }
  else s.creep

/-- WHEEL_PULSE (R59, R60): accepted in RELEASED outside a reset; outside OFFLINE it is handed to the segment, coast
and creep mechanisms. -/
def execWheelPulse (s : State) : Host.Outcome State Fault Refusal :=
  if s.inReset = true ∨ s.stride.filterAsserted = true then .next s
  else
    let t := s.setStride (s.stride.acceptPulse s.drive.direction)
    if t.active then .next (if t.stride.contactorOn then t.pulseOn else t.pulseOff) else .next t

/-- PULSE_FILTER_RELEASE (R59): low for 20 ms; no pulse is accepted. -/
def execPulseFilterRelease (s : State) : Host.Outcome State Fault Refusal :=
  if s.inReset = true ∨ s.stride.filterAsserted = false then .next s
  else .next (s.setStride { s.stride with filterAsserted := false, wheelHigh := false, heldFor := 20 })

/-- Steps 1 and 2 of a retry (R63): the pause starts at its full time and the stall mark is set. -/
def StrideMonitor.pause (m : StrideMonitor) (c : ConfigRecord) : StrideMonitor :=
  { m with retryPause := some (10 * c.retryPause.toNat), stallMark := true }

/-- Step 3 of a retry (R63, R8): Drive Control enters STALLED, or settles by the table when one of tiers 1 to 3 holds.
-/
def State.enterStalled (s : State) : State :=
  if s.topTier = none then (s.transition .stalled).followingEntry else s.settle

/-- A stall retried (R63): the pause, the mark, STALLED, and the STALL reason. -/
def State.retryStall (s : State) : State := (s.setStride (s.stride.pause s.config)).enterStalled.reportStall

/-- A stall taken and counted (R62 to R64). -/
def State.takeStall (s : State) : State :=
  let t := s.setStride { s.stride with stallTimer := none, stallEvents := satInc s.stride.stallEvents }
  match t.config.stalling with
  | .retry =>
    let t := t.setStride { t.stride with consecutiveStalls := t.stride.consecutiveStalls + 1 }
    if t.stride.consecutiveStalls ≤ t.config.retryLimit.toNat then t.retryStall
    else t.raiseHalt .stall (some t.own)
  | .halt => t.raiseHalt .stall (some t.own)
  | .off => t

/-- STALL_TIMER_EXPIRY (R62), when the timer has run out. A pulse taken first has started it again, and no stall is
taken. -/
def execStallTimerExpiry (s : State) : Host.Outcome State Fault Refusal :=
  if s.stride.stallTimer = some 0 then .next s.takeStall else .next s

/-- RETRY_PAUSE_END (R65), when the pause has run out: it stops and the state is settled at tiers 7 to 9. -/
def execRetryPauseEnd (s : State) : Host.Outcome State Fault Refusal :=
  if s.stride.retryPause = some 0 then .next (s.setStride { s.stride with retryPause := none }).settle
  else .next s

/-- COAST_WINDOW_EXPIRY (R68), when the window has run out. -/
def execCoastWindowExpiry (s : State) : Host.Outcome State Fault Refusal :=
  if s.stride.coastWindow = some 0 then .next (s.setStride { s.stride with coastWindow := none }) else .next s

end Sys2Proof.Machine
end

