-- ==== Sys2Proof/Machine/Dispatch.lean ====
section
/-! DEFINITION. One arm for each command: the direct call of its meaning. -/
namespace Sys2Proof.Machine

def exec (i : Instr) (s : State) : Host.Outcome State Fault Refusal :=
  match i with
  | .powerOnReset => Sys2Proof.Machine.execPowerOnReset s
  | .powerOnResetEnd straps => Sys2Proof.Machine.execPowerOnResetEnd straps s
  | .resetPinAssert => Sys2Proof.Machine.execResetPinAssert s
  | .resetPinRelease straps => Sys2Proof.Machine.execResetPinRelease straps s
  | .configReadComplete image ready => Sys2Proof.Machine.execConfigReadComplete image ready s
  | .contactorRestEnd => Sys2Proof.Machine.execContactorRestEnd s
  | .dwellTimerExpiry => Sys2Proof.Machine.execDwellTimerExpiry s
  | .lampBlinkStep => Sys2Proof.Machine.execLampBlinkStep s
  | .localTimeTick => Sys2Proof.Machine.execLocalTimeTick s
  | .sampleTimerExpiry ready => Sys2Proof.Machine.execSampleTimerExpiry ready s
  | .readyAssert => Sys2Proof.Machine.execReadyAssert s
  | .readyTimeout nextReady => Sys2Proof.Machine.execReadyTimeout nextReady s
  | .short nextReady => Sys2Proof.Machine.execShort nextReady s
  | .shiftComplete word nextReady => Sys2Proof.Machine.execShiftComplete word nextReady s
  | .wheelInputChange high => Sys2Proof.Machine.execWheelInputChange high s
  | .wheelPulse => Sys2Proof.Machine.execWheelPulse s
  | .pulseFilterRelease => Sys2Proof.Machine.execPulseFilterRelease s
  | .stallTimerExpiry => Sys2Proof.Machine.execStallTimerExpiry s
  | .retryPauseEnd => Sys2Proof.Machine.execRetryPauseEnd s
  | .coastWindowExpiry => Sys2Proof.Machine.execCoastWindowExpiry s
  | .endOfOnPart => Sys2Proof.Machine.execEndOfOnPart s
  | .endOfPeriod => Sys2Proof.Machine.execEndOfPeriod s
  | .staleAgePassed position => Sys2Proof.Machine.execStaleAgePassed position s
  | .lostLimitPassed position => Sys2Proof.Machine.execLostLimitPassed position s
  | .musterTimerExpiry => Sys2Proof.Machine.execMusterTimerExpiry s
  | .loopSenseChange present => Sys2Proof.Machine.execLoopSenseChange present s
  | .loopSenseSettled => Sys2Proof.Machine.execLoopSenseSettled s
  | .characterReceived line samples => Sys2Proof.Machine.execCharacterReceived line samples s
  | .receiverIdle line => Sys2Proof.Machine.execReceiverIdle line s
  | .frameCheckFailed line => Sys2Proof.Machine.execFrameCheckFailed line s
  | .statusFrame h b => Sys2Proof.Machine.execStatusFrame h b s
  | .runOrder h direction pace => Sys2Proof.Machine.execRunOrder h direction pace s
  | .stopOrder h direction pace => Sys2Proof.Machine.execStopOrder h direction pace s
  | .clearOrder h direction pace => Sys2Proof.Machine.execClearOrder h direction pace s
  | .holdFrame h reasons reach => Sys2Proof.Machine.execHoldFrame h reasons reach s
  | .freeFrame h => Sys2Proof.Machine.execFreeFrame h s
  | .answerFrame h item argument data => Sys2Proof.Machine.execAnswerFrame h item argument data s
  | .haltRecord h target argument => Sys2Proof.Machine.execHaltRecord h target argument s
  | .rosterView h target argument => Sys2Proof.Machine.execRosterView h target argument s
  | .lineCounts h target argument => Sys2Proof.Machine.execLineCounts h target argument s
  | .driveCounts h target argument => Sys2Proof.Machine.execDriveCounts h target argument s
  | .configDigest h target argument => Sys2Proof.Machine.execConfigDigest h target argument s
  | .holdView h target argument => Sys2Proof.Machine.execHoldView h target argument s
  | .orderView h target argument => Sys2Proof.Machine.execOrderView h target argument s
  | .haltPoint h target argument => Sys2Proof.Machine.execHaltPoint h target argument s
  | .lineFaults h target argument => Sys2Proof.Machine.execLineFaults h target argument s
  | .askUnknownItem h target item argument => Sys2Proof.Machine.execAskUnknownItem h target item argument s
  | .reportTimerExpiry => Sys2Proof.Machine.execReportTimerExpiry s
  | .transmissionStart times => Sys2Proof.Machine.execTransmissionStart times s
  | .transmissionComplete => Sys2Proof.Machine.execTransmissionComplete s
  | .clash => Sys2Proof.Machine.execClash s
  | .quietTimerExpiry line => Sys2Proof.Machine.execQuietTimerExpiry line s
  | .seizeDetected line => Sys2Proof.Machine.execSeizeDetected line s
  | .seizeEnd => Sys2Proof.Machine.execSeizeEnd s
  | .answerDiscard => Sys2Proof.Machine.execAnswerDiscard s
  | .orderUndefinedAction h action direction pace => Sys2Proof.Machine.execOrderUndefinedAction h action direction pace s

end Sys2Proof.Machine
end

