-- ==== Sys2Proof/Safety.lean ====
section
/-! DEFINITION. What a safe station is, in the terms the statements use: predicates of one state that the rules give as
standing facts. -/
namespace Sys2Proof.Machine

/-! ### Frames, as a statement names them -/

/-- The header and the class of a command that brings a frame; none for every other command. -/
def frameOf : Instr → Option (Header × FrameClass)
  | .statusFrame h _ => some (h, .status)
  | .runOrder h _ _ => some (h, .order)
  | .stopOrder h _ _ => some (h, .order)
  | .clearOrder h _ _ => some (h, .order)
  | .orderUndefinedAction h _ _ _ => some (h, .order)
  | .holdFrame h _ _ => some (h, .hold)
  | .freeFrame h => some (h, .free)
  | .answerFrame h _ _ _ => some (h, .answer)
  | .haltRecord h _ _ => some (h, .ask)
  | .rosterView h _ _ => some (h, .ask)
  | .lineCounts h _ _ => some (h, .ask)
  | .driveCounts h _ _ => some (h, .ask)
  | .configDigest h _ _ => some (h, .ask)
  | .holdView h _ _ => some (h, .ask)
  | .orderView h _ _ => some (h, .ask)
  | .haltPoint h _ _ => some (h, .ask)
  | .lineFaults h _ _ => some (h, .ask)
  | .askUnknownItem h _ _ _ => some (h, .ask)
  | _ => none

/-- The item of a command that brings an ASK, with its header, target and argument (Table 11-5). -/
def askOf : Instr → Option (Header × Byte × Byte × Byte)
  | .haltRecord h target argument => some (h, target, 1, argument)
  | .rosterView h target argument => some (h, target, 2, argument)
  | .lineCounts h target argument => some (h, target, 3, argument)
  | .driveCounts h target argument => some (h, target, 4, argument)
  | .configDigest h target argument => some (h, target, 5, argument)
  | .holdView h target argument => some (h, target, 6, argument)
  | .orderView h target argument => some (h, target, 7, argument)
  | .haltPoint h target argument => some (h, target, 8, argument)
  | .lineFaults h target argument => some (h, target, 9, argument)
  | .askUnknownItem h target item argument => some (h, target, item, argument)
  | _ => none

/-- A frame under this header is heard as another station's (R105, R147, R149, R156): the receivers collect, the
receiver of its line is not DISCARDING, and what stands in collection there is not the station's own readback. -/
structure State.Hears (s : State) (h : Header) : Prop where
  noReset : s.inReset = false
  checked : s.loader.state = .passed ∨ s.loader.state = .failed
  noSeize : s.line.transmitter ≠ .seizing
  other   : s.line.readsBack h.line = false
  taking  : (s.line.lineState h.line).receiver ≠ .discarding
  foreign : (s.line.lineState h.line).ownFrame = false

/-- A frame under this header is heard and accepted: the station is past its checks and not OFFLINE, and the frame
passes the four tests of Table 7-2. -/
structure State.Accepts (s : State) (h : Header) (k : FrameClass) : Prop where
  hears    : s.Hears h
  active   : s.active = true
  other    : h.source ≠ s.own
  expected : h.source.toNat ≤ s.towers
  listed   : k.acceptsFrom h.source = true
  fresh    : ¬(((s.roster.recordOf h.source).presence = .current ∨ (s.roster.recordOf h.source).presence = .stale)
    ∧ (s.roster.recordOf h.source).lastSeq = some h.seq)

/-- The station once the interface and the roster have taken an accepted frame: its line refreshed (R151), its source's
record updated (R110); `fill` takes a STATUS's fields (R111). -/
def State.heardFrom (s : State) (h : Header) (fill : RosterRecord → RosterRecord) : State :=
  (s.noteGood h.line).setRoster (s.roster.put h.source (fill ((s.roster.recordOf h.source).heard h.seq)))

/-- The station once the roster has taken an accepted frame, before the frame is handed on: a change of presence has
gone to the census (R114). -/
def State.afterHearing (s : State) (h : Header) (fill : RosterRecord → RosterRecord) : State :=
  if (s.roster.recordOf h.source).presence = .current then s.heardFrom h fill
  else (s.heardFrom h fill).evaluateCensus

/-- What no order, sample, pulse or boundary changes: the queue, the reset lines, local time, the roster, the
configuration and the loader. -/
structure State.SameOuter (s t : State) : Prop where
  pending   : t.pending = s.pending
  resets    : t.resets = s.resets
  localTime : t.localTime = s.localTime
  roster    : t.roster = s.roster
  loader    : t.loader = s.loader

/-- The order in force and the refused-order count (R118). -/
structure State.SameOrders (s t : State) : Prop where
  unset     : t.orders.unset = s.orders.unset
  number    : t.orders.number = s.orders.number
  action    : t.orders.action = s.orders.action
  direction : t.orders.direction = s.orders.direction
  pace      : t.orders.pace = s.orders.pace
  refused   : t.orders.refused = s.orders.refused

/-- The stride count, the three drive counters (R57) and the two failure counts (R41). -/
structure State.SameTallies (s t : State) : Prop where
  strideCount : t.stride.strideCount = s.stride.strideCount
  runTime     : t.stride.runTime = s.stride.runTime
  stallEvents : t.stride.stallEvents = s.stride.stallEvents
  creepPulses : t.stride.creepPulses = s.stride.creepPulses
  total       : t.sensor.failureTotal = s.sensor.failureTotal
  consecutive : t.sensor.consecutiveFailures = s.sensor.consecutiveFailures

/-- The counters, the line state and the quiet timer of each line (R151, R161). -/
structure State.SameLines (s t : State) : Prop where
  counters : ∀ l, (t.line.lineState l).counters = (s.line.lineState l).counters
  alive    : ∀ l, (t.line.lineState l).alive = (s.line.lineState l).alive
  quiet    : ∀ l, (t.line.lineState l).quietTimer = (s.line.lineState l).quietTimer

/-- The governor and the DIRECTION output (R23, R5). -/
structure State.SameBend (s t : State) : Prop where
  governor  : t.governor = s.governor
  direction : t.drive.direction = s.drive.direction

/-- The run request with which a census completes (R95, R131): at the pacer that of the period which then starts. -/
def State.requestAfterMuster (s : State) : Bool :=
  if s.isPacer then decide (0 < s.onLengthAt (s.pace.pendingPace.getD s.pace.pace)) else s.governor.runRequest

/-- The drive state at completion of the census (R131, R36): tiers 7 to 9, or HALTED on a lead beyond X. -/
def State.stateAfterMuster (s : State) : DriveState :=
  if s.leadBeyondHalt = true then .halted
  else if s.holds.isEmpty = false then .held
  else if s.requestAfterMuster = true ∧ s.drive.rest = .rested then .run
  else .wait

/-- A line whose frame in collection is dropped (R149): the receiver is DISCARDING; one with nothing in collection stays
as it is (log 28). -/
def LineState.dropped (y : LineState) : LineState :=
  { y with
    receiver := if y.receiver = .collecting then .discarding else y.receiver
    characters := if y.receiver = .collecting then [] else y.characters
    ownFrame := if y.receiver = .collecting then false else y.ownFrame }

/-- The ANSWER slot after an entry to HALTED (R140): a waiting ANSWER stays; one being sent that a seize cuts returns
when none waits. -/
def SpanLine.answerAfterHalt (x : SpanLine) (seizes : Bool) : Option AnswerRequest :=
  match x.transmitter with
  | .sending f =>
    match f.kind with
    | .answer a => if seizes = true then some (x.answerSlot.getD a) else x.answerSlot
    | .claim _ => x.answerSlot
    | .status => x.answerSlot
  | .released => x.answerSlot
  | .seizing => x.answerSlot

/-- `t` is the station just halted, `s` the one that met the cause, and `prior` the drive state left (R139, R140, R156):
the latch and the whole record, the output and the loop switch off, the timer of the state left stopped, the Pace Timer
paused, the hold set and the claim emptied, a STATUS requested, and on the line a seize with what was in collection
dropped, or for the causes that do not seize a claim frame cut short and any other left to complete. -/
structure State.HaltsWith (s t : State) (cause : HaltCause) (origin : Option Position) (prior : DriveState) : Prop where
  state   : t.drive.state = .halted
  output  : t.drive.runOutput = false
  lamp    : t.drive.lamp = true
  rest    : s.drive.state = .run → t.drive.rest = .resting 10
  dwell   : prior = .dwell → t.drive.dwellTimer = none
  muster  : prior = .muster → t.orders.musterTimer = none ∧ t.orders.counting = false ∧ t.orders.blocker = none
  retry   : prior = .stalled → t.stride.retryPause = none
  pace    : t.pace = { s.pace with running := if s.isPacer = true then false else s.pace.running
                                   pendingPace := t.pace.pendingPace }
  latched : t.halt.latched = true
  loop    : t.halt.loopClosed = false
  record  : t.halt.record =
    { cause := some cause, origin := origin, remoteCause := none, later := LaterCauses.empty, order := s.headerOrder,
      timeTag := s.localTime, lead := s.governor.lead.getD 0, strides := s.stride.strideCount, priorState := prior }
  holds   : ∀ p, t.holds.recordOf p = none
  claim   : t.claim = ClaimUnit.reset
  slots   : t.line.claimSlot = none ∧ t.line.statusSlot = true
  seizes  : cause.seizes = true → t.line.transmitter = .seizing
  quietly : cause.seizes = false → ∀ f, s.line.transmitter = .sending f →
    t.line.transmitter = (match f.kind with
      | .claim _ => .released
      | .answer _ => .sending f
      | .status => .sending f)
  answer  : t.line.answerSlot = s.line.answerAfterHalt cause.seizes
  newer   : cause.seizes = true → ∀ f a, s.line.transmitter = .sending f → f.kind = .answer a →
    s.line.answerSlot ≠ none → t.line.answerClashes = 0
  lines   : ∀ l, t.line.lineState l = if cause.seizes = true ∧ s.line.transmitter ≠ .seizing then
    (s.line.lineState l).dropped else s.line.lineState l

/-! ### Standing facts -/

/-- The drive state is the first line of Table 1-2 whose condition holds (R7). -/
def State.Settled (s : State) : Prop := s.settledState = s.drive.state

/-- The contactor is on exactly while the drive state is RUN, and the Stride Monitor's view agrees (R2, R61). -/
def State.ContactorOk (s : State) : Prop :=
  s.drive.runOutput = decide (s.drive.state = .run) ∧ s.stride.contactorOn = s.drive.runOutput

/-- The loop switch is open in OFFLINE and HALTED and closed in every other drive state (R135). -/
def State.LoopOk (s : State) : Prop :=
  s.halt.loopClosed = decide (s.drive.state ≠ .offline ∧ s.drive.state ≠ .halted)

/-- The stall timer runs only in RUN (R62). -/
def State.StallTimerOk (s : State) : Prop := s.stride.stallTimer ≠ none → s.drive.state = .run

/-- Before the checks have passed the order is unset and the latch clear (R118, R134); while the loader reads no
offline cause is set, and a reset in progress is within that time (R169). -/
structure State.StartUpOk (s : State) : Prop where
  early   : s.loader.state ≠ .passed → s.orders.unset = true ∧ s.halt.latched = false
  reading : s.loader.state = .reading → s.loader.offlineCause = none
  resets  : s.inReset = true → s.loader.state = .reading

/-- In OFFLINE the station drives neither line, its three slots are empty and the report timer is stopped (R158). -/
def State.SilentOk (s : State) : Prop :=
  s.drive.state = .offline →
    s.line.transmitter = .released ∧ s.line.claimSlot = none ∧ s.line.answerSlot = none
      ∧ s.line.statusSlot = false ∧ s.line.reportTimer = none

/-- The standing facts of the run decision and its outputs. -/
structure State.DriveInv (s : State) : Prop where
  settled   : s.Settled
  contactor : s.ContactorOk
  loop      : s.LoopOk
  stall     : s.StallTimerOk
  startUp   : s.StartUpOk
  silent    : s.SilentOk

/-- Each timer runs only while its state lasts: the dwell in DWELL (R6), the retry pause in STALLED (R65), the muster
timer and the census in MUSTER (R127), the coast window with the contactor off and outside OFFLINE (R61), the blink
group in OFFLINE with a cause (R22). The Pace Timer is RUNNING in WAIT and RUN at the pacer alone, and at its reset
values at every other position and before the checks have passed (R92, R96). -/
structure State.TimerInv (s : State) : Prop where
  dwell    : s.drive.dwellTimer ≠ none → s.drive.state = .dwell
  retry    : s.stride.retryPause ≠ none → s.drive.state = .stalled
  census   : s.orders.counting = true ∨ s.orders.musterTimer ≠ none → s.drive.state = .muster
  coast    : s.stride.coastWindow ≠ none → s.stride.contactorOn = false ∧ s.drive.state ≠ .offline
  blink    : s.drive.blinkTimer ≠ none → s.drive.state = .offline ∧ s.loader.offlineCause ≠ none
  pacing   : s.pace.running = decide (s.isPacer = true ∧ (s.drive.state = .wait ∨ s.drive.state = .run))
  paceless : s.isPacer = false ∨ s.loader.state ≠ .passed → s.pace = PaceTimer.reset

/-- The Sensor Port's lines and timers by its exchange state (R41, R43 to R45): select 0 asserted in READY_WAIT and
SHIFTING, select 1 in CONFIG_READ, the clock low but in SHIFTING and CONFIG_READ; the sample timer stopped in STOPPED
and CONFIG_READ, the ready timer running only in READY_WAIT; CONFIG_READ only before the checks, STOPPED in a reset
(R168). -/
structure State.PortInv (s : State) : Prop where
  select0 : s.sensor.select0 = decide (s.sensor.exchange = .readyWait ∨ s.sensor.exchange = .shifting)
  select1 : s.sensor.select1 = decide (s.sensor.exchange = .configRead)
  clock   : s.sensor.clock = .running ↔ s.sensor.exchange = .shifting ∨ s.sensor.exchange = .configRead
  sample  : s.sensor.exchange = .stopped ∨ s.sensor.exchange = .configRead → s.sensor.sampleTimer = none
  ready   : s.sensor.readyTimer ≠ none → s.sensor.exchange = .readyWait
  reading : s.sensor.exchange = .configRead → s.loader.state = .reading
  resets  : s.inReset = true → s.sensor.exchange = .stopped

/-- The lead is the truncated mean of the window under the DIRECTION output, unknown while it is empty (R27). -/
def State.LeadOk (s : State) : Prop := s.governor.lead = leadOf s.governor.window s.drive.direction

/-- The governor's standing facts: the lead; at most K samples (R23, R25); bends in the range a good sample has (R46);
no sample before the checks have passed; levels and window size as the record in force gives them (R23, R29). -/
structure State.LeadInv (s : State) : Prop where
  lead   : s.LeadOk
  count  : s.governor.window.length ≤ s.governor.size
  bends  : ∀ b ∈ s.governor.window, -1500 ≤ b ∧ b ≤ 1500
  early  : s.loader.state ≠ .passed → s.governor.window = []
  loaded : s.loader.state = .passed →
    s.governor.size = windowSize s.config.windowCode ∧ s.governor.levels = s.config.levelSet

/-- The roster's standing facts, once the checks have passed: the own record is CURRENT at age 0 with nothing missed
(R104), expected means 0 to N, and a record above N stays ABSENT (R103). Before that it is as a reset leaves it
(R102). -/
structure State.RosterInv (s : State) : Prop where
  own      : s.loader.state = .passed → (s.roster.recordOf s.own).presence = .current
    ∧ (s.roster.recordOf s.own).age = 0 ∧ (s.roster.recordOf s.own).missed = 0
  expected : s.loader.state = .passed → ∀ p, (s.roster.recordOf p).expected = decide (p.toNat ≤ s.towers)
  above    : s.loader.state = .passed → ∀ p : Position, s.towers < p.toNat → (s.roster.recordOf p).presence = .absent
    ∧ (s.roster.recordOf p).age = 0 ∧ (s.roster.recordOf p).lastSeq = none ∧ (s.roster.recordOf p).reported = none
  place    : s.loader.state = .passed → s.own.toNat ≤ s.towers
  early    : s.loader.state ≠ .passed → s.roster.records = Vector.replicate 32 RosterRecord.reset

/-- A hold record as R72 to R74 require it: its source inboard of this station, its reach covering it, its order number
the one in force. -/
def State.HoldOk (s : State) (source : Position) (r : HoldRecord) : Prop :=
  1 ≤ source.toNat ∧ covers source r.reach.toNat s.own = true ∧ s.orderInForce = some r.order
    ∧ r.reasons.isEmpty = false

/-- Every hold record is in order; before the checks have passed there is none (R72), and a reset is before them. -/
structure State.HoldInv (s : State) : Prop where
  records : ∀ source r, s.holds.recordOf source = some r → s.HoldOk source r
  early   : s.loader.state ≠ .passed → s.holds.records = Vector.replicate 32 none
  resets  : s.inReset = true → s.loader.state = .reading

/-- The outward claim as R83 requires it: the reach is that of the reasons, never beyond N minus the own position; the
pacer's claim is empty; before the checks have passed there is none. -/
structure State.ClaimInv (s : State) : Prop where
  reach  : s.claim.reach = s.reachOf s.claim.reasons
  pacer  : s.isPacer = true → s.claim.reasons = ReasonSet.empty
  early  : s.loader.state ≠ .passed → s.claim.reasons = ReasonSet.empty
  place  : s.loader.state = .passed → s.own.toNat ≤ s.towers
  resets : s.inReset = true → s.loader.state = .reading

end Sys2Proof.Machine
end

