-- ==== Sys2Proof/Certificates/Slice0/Obligations.lean ====
section
/-! DEFINITION. The statements for the provers. A hypothesis `State.DriveInv s` (and the like) rules out states that no
run reaches; that each step keeps it is a statement of its own, at the end. A state written as a record update of `s`
says what changes and, by the rest, what does not. -/

open Sys2Proof Sys2Proof.Machine

/-! ### The step -/

/-- A step takes the command at the front of the queue and executes it on the state with the queue's rest; on an empty
queue the block idles (the model's choice, log 3). -/
def Obligations.StepTakesFrontCommand : Prop :=
  ∀ s : State,
    (∀ (c : Instr) (rest : List Instr), s.pending = c :: rest → step s = exec c { s with pending := rest })
    ∧ (s.pending = [] → step s = .next s)

/-- Every command, in every state, answers a next state, and no command puts one in the queue. That the part refuses no
event and stops on none is the model's reading (log 25). -/
def Obligations.EveryCommandAnswersNext : Prop :=
  ∀ (i : Instr) (s : State), ∃ t, exec i s = .next t ∧ t.pending = s.pending

/-- A command whose event cannot occur in the state it finds changes nothing: the end of a time held in tenths that has
not run out among them (the model's choice, log 1). -/
def Obligations.AbsentEventsChangeNothing : Prop :=
  ∀ (s : State) (ready : Bool) (word : BitVec 24) (line : Line) (straps p : Position) (image : List Byte),
    (s.resets.powerOn = false → exec (.powerOnResetEnd straps) s = .next s)
    ∧ (s.resets.pin = false → exec (.resetPinRelease straps) s = .next s)
    ∧ (s.sensor.exchange ≠ .configRead → exec (.configReadComplete image ready) s = .next s)
    ∧ (s.drive.rest ≠ .resting 0 → exec .contactorRestEnd s = .next s)
    ∧ (s.drive.state ≠ .dwell ∨ s.drive.dwellTimer ≠ some 0 → exec .dwellTimerExpiry s = .next s)
    ∧ (s.drive.state ≠ .offline ∨ s.loader.offlineCause = none ∨ s.drive.blinkTimer ≠ some 0 →
        exec .lampBlinkStep s = .next s)
    ∧ (s.sensor.sampleTimer ≠ some 0 → exec (.sampleTimerExpiry ready) s = .next s)
    ∧ (s.sensor.exchange ≠ .readyWait → exec .readyAssert s = .next s ∧ exec (.readyTimeout ready) s = .next s)
    ∧ (s.sensor.exchange ≠ .shifting →
        exec (.short ready) s = .next s ∧ exec (.shiftComplete word ready) s = .next s)
    ∧ (s.stride.stallTimer ≠ some 0 → exec .stallTimerExpiry s = .next s)
    ∧ (s.stride.retryPause ≠ some 0 → exec .retryPauseEnd s = .next s)
    ∧ (s.stride.coastWindow ≠ some 0 → exec .coastWindowExpiry s = .next s)
    ∧ (s.pace.running = false ∨ s.pace.position < s.pace.onLength → exec .endOfOnPart s = .next s)
    ∧ (s.pace.running = false ∨ s.pace.position < 10 * s.config.pacePeriod.toNat → exec .endOfPeriod s = .next s)
    ∧ (s.drive.state ≠ .muster ∨ s.orders.musterTimer ≠ some 0 → exec .musterTimerExpiry s = .next s)
    ∧ (s.halt.rawSense = s.halt.settledSense ∨ s.halt.differsFor ≠ 2 → exec .loopSenseSettled s = .next s)
    ∧ (s.line.reportTimer ≠ some 0 → exec .reportTimerExpiry s = .next s)
    ∧ (s.line.transmitter = .released →
        exec .transmissionComplete s = .next s ∧ exec .clash s = .next s ∧ exec .seizeEnd s = .next s)
    ∧ ((s.line.lineState line).quietTimer ≠ some 0 → exec (.quietTimerExpiry line) s = .next s)
    ∧ ((s.roster.recordOf p).age.toNat ≤ s.config.staleAge → exec (.staleAgePassed p) s = .next s)
    ∧ ((s.roster.recordOf p).age.toNat ≤ s.config.lostTenths → exec (.lostLimitPassed p) s = .next s)
    ∧ ((∀ a, s.line.answerSlot = some a → a.discard ≠ 0) → exec .answerDiscard s = .next s)

/-! ### Resets and start-up -/

/-- The two resets (R168): every block takes its reset values at once; the reset pin keeps the retention set (the
stride count, the run time, stall event and creep pulse counters, the halt record), the power-on reset clears it. The
levels of the input pins and the queue are not the part's. The second clause writes the reset values out, chapter by
chapter. The rest timer, the levels of inputs, the governor's levels, local time and the line rate in a reset are the
model's (log 2). -/
def Obligations.ResetsForceEveryBlock : Prop :=
  (∀ s : State,
    exec .powerOnReset s = .next
      { State.reset with
        pending := s.pending
        resets := { powerOn := true, pin := s.resets.pin }
        sensor := { SensorPort.reset with readyPin := s.sensor.readyPin }
        stride := { StrideMonitor.reset with wheelHigh := s.stride.wheelHigh }
        halt := { HaltUnit.reset with rawSense := s.halt.rawSense }
        choices := s.choices }
    ∧ exec .resetPinAssert s = .next
      { State.reset with
        pending := s.pending
        resets := { powerOn := s.resets.powerOn, pin := true }
        sensor := { SensorPort.reset with readyPin := s.sensor.readyPin }
        stride := { StrideMonitor.reset with
          wheelHigh := s.stride.wheelHigh
          strideCount := s.stride.strideCount
          runTime := s.stride.runTime
          stallEvents := s.stride.stallEvents
          creepPulses := s.stride.creepPulses }
        halt := { HaltUnit.reset with rawSense := s.halt.rawSense, record := s.halt.record }
        choices := s.choices })
  ∧ (∀ (i : Instr) (s : State), i = .powerOnReset ∨ i = .resetPinAssert → ∃ t, exec i s = .next t
      ∧ t.drive.state = .offline ∧ t.drive.runOutput = false ∧ t.drive.direction = .forward ∧ t.drive.lamp = false
      ∧ t.drive.dwellTimer = none ∧ t.loader.offlineCause = none ∧ t.loader.state = .reading ∧ t.loader.own = 0
      ∧ t.loader.config = ConfigRecord.zero
      ∧ t.governor.window = [] ∧ t.governor.lead = none ∧ t.governor.runRequest = false ∧ t.governor.lagMark = false
      ∧ t.sensor.exchange = .stopped ∧ t.sensor.sampleTimer = none ∧ t.sensor.pendingExpiry = false
      ∧ t.sensor.readyTimer = none ∧ t.sensor.receivedWord = none ∧ t.sensor.consecutiveFailures = 0
      ∧ t.sensor.failureTotal = 0 ∧ t.sensor.faultMark = false ∧ t.sensor.select0 = false ∧ t.sensor.select1 = false
      ∧ t.sensor.clock = .low ∧ t.stride.filterAsserted = true ∧ t.stride.contactorOn = false ∧ t.stride.stallTimer = none
      ∧ t.stride.segmentPulses = 0 ∧ t.stride.consecutiveStalls = 0 ∧ t.stride.stallMark = false
      ∧ t.stride.retryPause = none ∧ t.stride.coastWindow = none ∧ t.stride.coastCount = 0 ∧ t.stride.creepCount = 0
      ∧ (∀ p, t.holds.recordOf p = none) ∧ t.holds.unappliedHold = 0 ∧ t.holds.unmatchedFree = 0
      ∧ t.claim.reasons = ReasonSet.empty ∧ t.claim.reach = 0 ∧ t.claim.announced = false
      ∧ t.pace.running = false ∧ t.pace.position = 0 ∧ t.pace.pace = 0 ∧ t.pace.onLength = 0
      ∧ t.pace.pendingPace = none ∧ t.pace.request = false
      ∧ (∀ p, (t.roster.recordOf p).presence = .absent ∧ (t.roster.recordOf p).age = 0
          ∧ (t.roster.recordOf p).lastSeq = none ∧ (t.roster.recordOf p).missed = 0
          ∧ (t.roster.recordOf p).accepted = 0 ∧ (t.roster.recordOf p).reported = none)
      ∧ t.roster.duplicateTotal = 0 ∧ t.roster.strangerTotal = 0 ∧ t.roster.notAcceptedTotal = 0
      ∧ t.orders.unset = true ∧ t.orders.number = 0 ∧ t.orders.action = .stop ∧ t.orders.direction = .forward
      ∧ t.orders.pace = 0 ∧ t.orders.musterTimer = none ∧ t.orders.counting = false ∧ t.orders.blocker = none
      ∧ t.orders.refused = 0
      ∧ t.halt.latched = false ∧ t.halt.loopClosed = false ∧ t.halt.settledSense = false
      ∧ (∀ l, (t.line.lineState l).receiver = .idle ∧ (t.line.lineState l).characters = []
          ∧ (t.line.lineState l).alive = false ∧ (t.line.lineState l).quietTimer = none
          ∧ (t.line.lineState l).armed = true ∧ (t.line.lineState l).counters = LineCounters.reset)
      ∧ t.line.sendLine = .a ∧ t.line.transmitter = .released ∧ t.line.yieldBias = false
      ∧ t.line.claimSlot = none ∧ t.line.answerSlot = none ∧ t.line.statusSlot = false
      ∧ t.line.claimClashes = 0 ∧ t.line.answerClashes = 0 ∧ t.line.statusClashes = 0
      ∧ t.line.consecutiveClashes = 0 ∧ t.line.reportTimer = none ∧ t.line.answersDiscarded = 0)

/-- The end of a reset, of either kind (R3, R169): the straps are read, the rest starts at 1.0 s, local time counts from
0, and the port begins the configuration read on select 1, its clock running. While the other reset goes on nothing else
happens (log 8). The clock is shown as low or running (the model's choice, log 18). -/
def Obligations.ResetEndBeginsConfigRead : Prop :=
  ∀ (s : State) (straps : Position),
    (s.resets.powerOn = true → exec (.powerOnResetEnd straps) s = .next
      (if s.resets.pin = true then { s with resets := { s.resets with powerOn := false } }
       else { s with
        resets := { powerOn := false, pin := false }
        localTime := 0
        loader := { s.loader with own := straps }
        drive := { s.drive with rest := .resting 10 }
        sensor := { s.sensor with
          exchange := .configRead, select1 := true, clock := .running
          dataOut := 0xA5 :: 0x00 :: List.replicate 32 0 } }))
    ∧ (s.resets.pin = true → exec (.resetPinRelease straps) s = .next
      (if s.resets.powerOn = true then { s with resets := { s.resets with pin := false } }
       else { s with
        resets := { powerOn := false, pin := false }
        localTime := 0
        loader := { s.loader with own := straps }
        drive := { s.drive with rest := .resting 10 }
        sensor := { s.sensor with
          exchange := .configRead, select1 := true, clock := .running
          dataOut := 0xA5 :: 0x00 :: List.replicate 32 0 } }))

/-- The configuration checks, in the order of Table 12-2 (R170), on the 32 bytes read, the ranges as Table 12-1 gives
them and a table D level set as R30 and R31 give it. The first that fails decides, and no later one is made. -/
def Obligations.ConfigurationChecksDecide : Prop :=
  ∀ (s : State) (image : List Byte) (ready : Bool), image.length = 32 → s.DriveInv → s.inReset = false →
    s.loader.state = .reading → s.sensor.exchange = .configRead →
    ∃ t, exec (.configReadComplete image ready) s = .next t ∧
      let c := ConfigRecord.ofBytes image
      let own := s.loader.own.toNat
      let h : Int := [5, 10, 15, 20, 25, 30, 40, 50, 60, 70, 80, 90, 100, 120, 140, 160].getD c.hysteresisCode.toNat 160
      let failed (cause : OfflineCause) : Prop := t.loader.state = .failed ∧ t.loader.offlineCause = some cause
      t.loader.config = c ∧ t.loader.own = s.loader.own ∧
      if crcOf (image.take 30) ≠ image.getD 30 0 ++ image.getD 31 0 then failed .configCheck
      else if c.layoutVersion ≠ 2 then failed .configCheck
      else if ¬(2 ≤ c.towers.toNat ∧ c.towers.toNat ≤ 31 ∧ c.lineRateCode.toNat ≤ 2 ∧ c.alternateLine.toNat ≤ 1
          ∧ c.reportCode.toNat ≤ 8 ∧ 5 ≤ c.lostLimit.toNat ∧ c.lostLimit.toNat ≤ 30 ∧ c.levelTable.toNat ≤ 3
          ∧ c.windowCode.toNat ≤ 3 ∧ 1 ≤ c.samplePeriod.toNat ∧ c.samplePeriod.toNat ≤ 10
          ∧ c.sensorMode.toNat ≤ 2 ∧ 1 ≤ c.signature.toNat ∧ c.signature.toNat ≤ 0xFE
          ∧ c.readyPolarity.toNat ≤ 1 ∧ 10 ≤ c.readyTimeout.toNat ∧ c.readyTimeout.toNat ≤ 100
          ∧ c.stallMode.toNat ≤ 2 ∧ 5 ≤ c.stallTime.toNat ∧ c.stallTime.toNat ≤ 120
          ∧ 5 ≤ c.retryPause.toNat ∧ c.retryPause.toNat ≤ 60 ∧ 1 ≤ c.retryLimit.toNat ∧ c.retryLimit.toNat ≤ 7
          ∧ c.coastAllowance.toNat ≤ 7 ∧ 1 ≤ c.creepLimit.toNat ∧ c.creepLimit.toNat ≤ 15
          ∧ 30 ≤ c.pacePeriod.toNat ∧ c.pacePeriod.toNat ≤ 120 ∧ 10 ≤ c.musterTime.toNat ∧ c.musterTime.toNat ≤ 60
          ∧ 2 ≤ c.reversalDwell.toNat ∧ c.reversalDwell.toNat ≤ 30) then failed .configRange
      else if c.levelTable.toNat = 3 ∧ ¬(c.hysteresisCode.toNat ≤ 15 ∧ 0 ≤ (c.startLevelD.toNat : Int) - h
          ∧ (c.startLevelD.toNat : Int) - h < c.startLevelD.toNat
          ∧ (c.startLevelD.toNat : Int) < c.holdLevelD.toNat - h ∧ (c.holdLevelD.toNat : Int) - h < c.holdLevelD.toNat
          ∧ (c.holdLevelD.toNat : Int) < c.haltLevelD.toNat ∧ c.haltLevelD.toNat ≤ 1200) then failed .configRange
      else if ¬(3 * (10 + 5 * c.reportCode.toNat) < 10 * c.lostLimit.toNat) then failed .configRange
      else if ¬(1 ≤ own ∧ own ≤ c.towers.toNat) then failed .positionRange
      else t.loader.state = .passed ∧ t.loader.offlineCause = none

/-- A failed check (R172): the record and its CRC field are held, the station stays as it is but for the cause, the
lamp's first blink, the port STOPPED with select 1 released and its clock low, and the receivers at 19200 bit/s. The
port's outputs are shown as bytes and as a low or running clock (the model's form, log 18). -/
def Obligations.ChecksFailedStaysOffline : Prop :=
  ∀ (s : State) (image : List Byte) (ready : Bool) (cause : OfflineCause), s.inReset = false →
    s.loader.state = .reading → s.sensor.exchange = .configRead → s.drive.state = .offline →
    configFailure (ConfigRecord.ofBytes image) (crcFieldOf image) s.loader.own = some cause →
    exec (.configReadComplete image ready) s = .next
      { s with
        loader := { s.loader with state := .failed, config := ConfigRecord.ofBytes image, crc := crcFieldOf image,
                                  offlineCause := some cause }
        sensor := { s.sensor with exchange := .stopped, select1 := false, clock := .low, dataOut := [] }
        line := { s.line with lineRate := .bps19200 }
        drive := { s.drive with lamp := true, blinkPhase := 0, blinkTimer := some 5 } }

/-- All checks passed (R171): IDLE with the loop closed, the order unset, a STATUS requested, the report timer running,
the receivers at the configured line rate, the roster's expected fields and own record set, the governor's levels (Table
2-3, and R30 with Table 2-4 for table D) and window size (Table 2-1) loaded, and the port STOPPED at the pacer,
beginning its first exchange at a follower. The clock is shown as low or running (the model's choice, log 18). -/
def Obligations.ChecksPassedEntersIdle : Prop :=
  ∀ (s : State) (image : List Byte) (ready : Bool), s.DriveInv → s.RosterInv → s.inReset = false →
    s.loader.state = .reading → s.sensor.exchange = .configRead →
    configFailure (ConfigRecord.ofBytes image) (crcFieldOf image) s.loader.own = none →
    ∃ t, exec (.configReadComplete image ready) s = .next t
      ∧ let c := ConfigRecord.ofBytes image
        let pacer : Prop := s.loader.own.toNat = c.towers.toNat
        let h : Int := [5, 10, 15, 20, 25, 30, 40, 50, 60, 70, 80, 90, 100, 120, 140, 160].getD c.hysteresisCode.toNat 160
        let levels : LevelSet :=
          if c.levelTable = 0 then { stop := 10, start := 40, resume := 80, hold := 150, halt := 400 }
          else if c.levelTable = 1 then { stop := 20, start := 60, resume := 120, hold := 200, halt := 500 }
          else if c.levelTable = 2 then { stop := 30, start := 100, resume := 180, hold := 300, halt := 700 }
          else { stop := c.startLevelD.toNat - h, start := c.startLevelD.toNat, resume := c.holdLevelD.toNat - h
                 hold := c.holdLevelD.toNat, halt := c.haltLevelD.toNat }
        t.loader = { s.loader with state := .passed, config := c, crc := crcFieldOf image }
      ∧ t.drive.state = .idle ∧ t.drive.runOutput = false ∧ t.drive.lamp = false
      ∧ t.drive.direction = s.drive.direction ∧ t.drive.rest = s.drive.rest
      ∧ t.halt = { s.halt with loopClosed := true }
      ∧ t.orders = s.orders ∧ (∀ p, t.holds.recordOf p = none) ∧ t.claim = ClaimUnit.reset
      ∧ t.line.statusSlot = true ∧ t.line.reportTimer = some (10 + 5 * c.reportCode.toNat)
      ∧ t.line.sendLine = s.line.sendLine ∧ t.line.lineA = s.line.lineA ∧ t.line.lineB = s.line.lineB
      ∧ t.line.lineRate = [LineRate.bps9600, .bps19200, .bps38400].getD c.lineRateCode.toNat .bps38400
      ∧ t.governor = { s.governor with levels := levels, size := [1, 2, 4, 8].getD c.windowCode.toNat 8 }
      ∧ (∀ p : Position, (t.roster.recordOf p).expected = decide (p.toNat ≤ c.towers.toNat))
      ∧ (∀ p : Position, p ≠ s.loader.own → (t.roster.recordOf p).presence = .absent)
      ∧ (t.roster.recordOf s.loader.own).presence = .current ∧ (t.roster.recordOf s.loader.own).age = 0
      ∧ (t.roster.recordOf s.loader.own).missed = 0 ∧ (t.roster.recordOf s.loader.own).accepted = 0
      ∧ (t.roster.recordOf s.loader.own).lastSeq = some 255
      ∧ t.sensor.select1 = false
      ∧ (pacer → t.sensor.exchange = .stopped ∧ t.sensor.clock = .low ∧ t.sensor.select0 = s.sensor.select0
          ∧ t.sensor.sampleTimer = s.sensor.sampleTimer)
      ∧ (¬pacer → t.sensor.select0 = true ∧ t.sensor.sampleTimer = some c.samplePeriod.toNat
          ∧ t.sensor.exchange = (if c.readyAsserted ready = true then .shifting else .readyWait)
          ∧ t.sensor.clock = (if c.readyAsserted ready = true then .running else .low))
      ∧ t.stride = s.stride.atTransition .offline .idle ∧ t.localTime = s.localTime ∧ t.pending = s.pending

/-- The state in the power-on reset has every standing fact. The power-on reset in progress is the model's start (log
2). -/
def Obligations.ResetStateStands : Prop :=
  State.reset.DriveInv ∧ State.reset.LeadInv ∧ State.reset.RosterInv ∧ State.reset.HoldInv ∧ State.reset.ClaimInv
    ∧ State.reset.TimerInv ∧ State.reset.PortInv

/-! ### Drive Control -/

/-- The contactor rest has run out and ends (R3, R4): in WAIT with the request present the station enters RUN (a lead of
magnitude X or more would halt it there, R36, and none stands in WAIT), in every other case the rest timer alone
changes. -/
def Obligations.RestEndSettles : Prop :=
  ∀ s : State, s.DriveInv → s.inReset = false → s.drive.rest = .resting 0 →
    ∃ t, exec .contactorRestEnd s = .next t
      ∧ (¬(s.drive.state = .wait ∧ s.runRequest = true) → t = { s with drive := { s.drive with rest := .rested } })
      ∧ (s.drive.state = .wait ∧ s.runRequest = true → s.leadBeyondHalt = false →
          t.drive.state = .run ∧ t.drive.runOutput = true ∧ t.drive.rest = .rested
          ∧ t.drive.dwellTimer = s.drive.dwellTimer ∧ t.drive.lamp = false
          ∧ t.stride.contactorOn = true ∧ t.stride.segmentPulses = 0 ∧ t.stride.creepCount = 0
          ∧ t.stride.coastWindow = none ∧ t.stride.coastCount = 0
          ∧ t.stride.stallTimer = (if s.config.stalling = .off then none else some (10 * s.config.stallTime.toNat))
          ∧ t.stride.consecutiveStalls = s.stride.consecutiveStalls ∧ t.stride.stallMark = s.stride.stallMark
          ∧ t.stride.retryPause = s.stride.retryPause
          ∧ t.line.statusSlot = true ∧ t.line.transmitter = s.line.transmitter
          ∧ t.pace = (if s.isPacer = true then { s.pace with running := true } else s.pace)
          ∧ s.SameOuter t ∧ s.SameOrders t ∧ s.SameBend t ∧ s.SameTallies t ∧ s.SameLines t
          ∧ t.claim.reasons = s.claim.reasons.put .lag (s.governor.lagMark && !s.isPacer)
          ∧ t.claim.announced = s.claim.announced
          ∧ t.holds = s.holds ∧ t.halt = s.halt ∧ t.sensor = s.sensor ∧ t.orders = s.orders)

/-- A dwell that has run out expires (R6, R16, R127): MUSTER, with the muster timer started, the census COUNTING, a
STATUS requested and the census evaluated at once; a census that completes at this evaluation goes on as R131 gives. -/
def Obligations.DwellExpiryEntersMuster : Prop :=
  ∀ s : State, s.DriveInv → s.drive.state = .dwell → s.drive.dwellTimer = some 0 →
    ∃ t, exec .dwellTimerExpiry s = .next t ∧ t.drive.dwellTimer = none ∧ s.SameOuter t ∧ s.SameOrders t
      ∧ s.SameBend t ∧ s.SameTallies t ∧ s.SameLines t ∧ t.line.statusSlot = true
      ∧ (∀ b, s.censusBlocker = some b →
          t.drive = { s.drive with state := .muster, dwellTimer := none, lamp := false, blinkPhase := 0,
                                   blinkTimer := none }
          ∧ t.orders = { s.orders with musterTimer := some (10 * s.config.musterTime.toNat), counting := true,
                                       blocker := some b }
          ∧ t.line = { s.line with statusSlot := true } ∧ t.holds = s.holds ∧ t.claim = s.claim ∧ t.halt = s.halt
          ∧ t.stride = s.stride ∧ t.sensor = s.sensor
          ∧ t.pace = (if s.isPacer = true then { s.pace with running := false } else s.pace))
      ∧ (s.censusBlocker = none →
          t.drive.state = s.stateAfterMuster ∧ t.orders.musterTimer = none ∧ t.orders.counting = false
          ∧ t.orders.blocker = none)

/-- One switching of the lamp's blink group in OFFLINE, at the end of a switching time (R22): on and off in turn 0.5 s
each, the blink count of the cause, and 2.0 s more after the last. -/
def Obligations.LampBlinksTheCause : Prop :=
  ∀ (s : State) (cause : OfflineCause), s.drive.state = .offline → s.loader.offlineCause = some cause →
    s.drive.blinkTimer = some 0 →
    let count := match cause with
      | .configCheck => 1
      | .configRange => 2
      | .positionRange => 3
      | .positionConflict => 4
    let place := (s.drive.blinkPhase + 1) % (2 * count)
    exec .lampBlinkStep s = .next
      { s with drive := { s.drive with
          blinkPhase := place
          lamp := decide (place % 2 = 0)
          blinkTimer := some (if place = 2 * count - 1 then 25 else 5) } }

/-- A tenth of a second outside a reset (R3, R6, R70, R96, R104, R113 and 00 section 6.3): local time, the run time
while the output is on, the ages of the CURRENT, STALE and LOST records of other positions, the pace position while
RUNNING; every timer held in tenths has one less, the discard time of an ANSWER on the line among them (log 13); nothing
else changes. A timer at 0 and a pace position at the period stand there until the command of their end, and times below
a tenth are not counted (the model's choices, logs 1 and 4). -/
def Obligations.LocalTimeTickCounts : Prop :=
  ∀ s : State, s.inReset = false →
    let less (x : Option Nat) : Option Nat := x.map (fun n => n - 1)
    ∃ t, exec .localTimeTick s = .next t
      ∧ t.localTime = s.localTime + 1
      ∧ (∀ n, s.drive.rest = .resting n → t.drive.rest = .resting (n - 1))
      ∧ (s.drive.rest = .rested → t.drive.rest = .rested)
      ∧ t.drive = { s.drive with
          rest := t.drive.rest, dwellTimer := less s.drive.dwellTimer, blinkTimer := less s.drive.blinkTimer }
      ∧ t.sensor = { s.sensor with sampleTimer := less s.sensor.sampleTimer }
      ∧ t.stride = { s.stride with
          stallTimer := less s.stride.stallTimer, retryPause := less s.stride.retryPause
          coastWindow := less s.stride.coastWindow
          runTime := if s.drive.runOutput = true ∧ s.stride.runTime.toNat < 16777215 then s.stride.runTime + 1
                     else s.stride.runTime }
      ∧ t.pace = (if s.pace.running = true then
          { s.pace with position := min (s.pace.position + 1) (10 * s.config.pacePeriod.toNat) } else s.pace)
      ∧ (∀ p : Position, t.roster.recordOf p =
          if s.active = true ∧ p ≠ s.own ∧ (s.roster.recordOf p).presence ≠ .absent then
            { s.roster.recordOf p with age :=
                if (s.roster.recordOf p).age.toNat < 65535 then (s.roster.recordOf p).age + 1
                else (s.roster.recordOf p).age }
          else s.roster.recordOf p)
      ∧ t.roster.duplicateTotal = s.roster.duplicateTotal ∧ t.roster.strangerTotal = s.roster.strangerTotal
      ∧ t.roster.notAcceptedTotal = s.roster.notAcceptedTotal
      ∧ t.orders = { s.orders with musterTimer := less s.orders.musterTimer }
      ∧ t.halt = { s.halt with
          differsFor := if s.halt.rawSense = s.halt.settledSense then 0 else min (s.halt.differsFor + 1) 2 }
      ∧ t.line = { s.line with
          lineA := { s.line.lineA with quietTimer := less s.line.lineA.quietTimer }
          lineB := { s.line.lineB with quietTimer := less s.line.lineB.quietTimer }
          reportTimer := less s.line.reportTimer
          answerSlot := s.line.answerSlot.map (fun a => { a with discard := a.discard - 1 })
          transmitter := t.line.transmitter }
      ∧ (∀ f a, s.line.transmitter = .sending f → f.kind = .answer a →
          t.line.transmitter = .sending { f with kind := .answer { a with discard := a.discard - 1 } })
      ∧ ((∀ f a, s.line.transmitter = .sending f → f.kind ≠ .answer a) → t.line.transmitter = s.line.transmitter)
      ∧ t = { s with localTime := t.localTime, drive := t.drive, sensor := t.sensor, stride := t.stride, pace := t.pace
                     roster := t.roster, orders := t.orders, halt := t.halt, line := t.line }

/-- The order of force (R7, R8): the settled state is the first line of Table 1-2 that holds; settling changes nothing
when it is the state held, and otherwise makes the transition to it. That the whole transition (R11) comes before the
test of the lead on entry to a following state (R36) is the model's choice (log 35). -/
def Obligations.OrderOfForceSettles : Prop :=
  ∀ s : State,
    s.settledState =
      (if s.loader.state ≠ .passed ∨ s.loader.offlineCause ≠ none then .offline
       else if s.halt.latched = true then .halted
       else if s.orders.unset = true ∨ s.orders.action ≠ .run then .idle
       else if s.drive.state = .dwell ∧ s.drive.dwellTimer ≠ none then .dwell
       else if s.drive.state = .muster ∧ s.orders.counting = true then .muster
       else if s.drive.state = .stalled ∧ s.stride.retryPause ≠ none then .stalled
       else if s.holds.isEmpty = false then .held
       else if s.runRequest = true ∧ s.drive.rest = .rested then .run
       else .wait)
    ∧ (s.holds.isEmpty = true ↔ ∀ p, s.holds.recordOf p = none)
    ∧ s.runRequest = (if s.own.toNat = s.towers then s.pace.request else s.governor.runRequest)
    ∧ (s.settledState = s.drive.state → s.settle = s)
    ∧ (s.settledState ≠ s.drive.state → s.settle = (s.transition s.settledState).followingEntry)
    ∧ ∀ d, (s.transition d).drive.state = d

/-- In every step: a station that leaves RUN has the output off and the rest started at 1.0 s, and a station that enters
RUN is rested and has the output on (R2, R3); the DIRECTION output changes only to the order's direction as DWELL is
entered, or to FORWARD in a reset, and always with the RUN output off (R5). -/
def Obligations.OutputsChangeOnlyAsGiven : Prop :=
  ∀ s t : State, s.DriveInv → step s = .next t →
    (s.drive.state = .run → t.drive.state ≠ .run → t.drive.rest = .resting 10 ∧ t.drive.runOutput = false)
    ∧ (s.drive.state ≠ .run → t.drive.state = .run → t.drive.rest = .rested ∧ t.drive.runOutput = true)
    ∧ (t.drive.direction ≠ s.drive.direction →
    t.drive.runOutput = false
    ∧ (t.drive.state = .dwell ∧ t.drive.direction = t.orders.direction
      ∨ t.inReset = true ∧ t.drive.state = .offline ∧ t.drive.direction = .forward))

/-! ### Bend sensing and the governor -/

/-- A sample timer that has run out expires (R43, R44): at rest an exchange begins, select 0 asserted and the timer
started afresh, shifting at once when ready is already asserted; during an exchange the expiry is kept pending. Ready
asserting in the ready wait stops its timer and begins the shift, sending the command byte and 16 zero bits, its clock
running (R45). An expiry in STOPPED or CONFIG_READ cannot occur, and that it then changes nothing is the model's choice
(log 1). The clock is shown as low or running (the model's choice, log 18). -/
def Obligations.ExchangeBeginsAndShifts : Prop :=
  ∀ (s : State) (ready : Bool),
    (s.sensor.exchange = .readyWait → exec .readyAssert s = .next
      { s with sensor := { s.sensor with exchange := .shifting, readyTimer := none, clock := .running,
                                         dataOut := [s.config.command, 0, 0],
                                         readyPin := decide (s.config.readyPolarity = 0) } })
    ∧ (s.sensor.sampleTimer = some 0 →
    let asserted : Bool := if s.config.readyPolarity = 0 then ready else !ready
    (s.sensor.exchange = .resting → exec (.sampleTimerExpiry ready) s = .next
      { s with sensor := { s.sensor with
          select0 := true, receivedWord := none, pendingExpiry := false, readyPin := ready
          sampleTimer := some s.config.samplePeriod.toNat
          exchange := if asserted = true then .shifting else .readyWait
          readyTimer := if asserted = true then none else some s.config.readyTimeout.toNat
          clock := if asserted = true then .running else .low
          dataOut := if asserted = true then [s.config.command, 0, 0] else [] } })
    ∧ (s.sensor.exchange = .readyWait ∨ s.sensor.exchange = .shifting → exec (.sampleTimerExpiry ready) s = .next
      { s with sensor := { s.sensor with sampleTimer := none, pendingExpiry := true } })
    ∧ (s.sensor.exchange = .stopped ∨ s.sensor.exchange = .configRead → exec (.sampleTimerExpiry ready) s = .next s))

/-- The end of an exchange at the port, whatever its result (R43, R45, R54): select 0 is released, the clock low, and
the port rests, a pending expiry begins the next exchange at once, and in OFFLINE the result is discarded and the port
stops. The port's outputs are shown as bytes and as a low or running clock (the model's form, log 18). -/
def Obligations.ExchangeEndReleasesSelect : Prop :=
  ∀ (s : State) (i : Instr) (ready : Bool) (word : BitVec 24), s.DriveInv →
    (i = .readyTimeout ready ∧ s.sensor.exchange = .readyWait
      ∨ (i = .short ready ∨ i = .shiftComplete word ready) ∧ s.sensor.exchange = .shifting) →
    ∃ t, exec i s = .next t
      ∧ (s.drive.state = .offline → t = { s with sensor := { s.sensor with
          select0 := false, clock := .low, readyTimer := none, dataOut := [], receivedWord := none, exchange := .stopped
          sampleTimer := none, pendingExpiry := false, readyPin := t.sensor.readyPin } })
      ∧ (s.drive.state ≠ .offline → s.sensor.pendingExpiry = false →
          t.sensor.exchange = .resting ∧ t.sensor.select0 = false ∧ t.sensor.clock = .low ∧ t.sensor.readyTimer = none
          ∧ t.sensor.sampleTimer = s.sensor.sampleTimer ∧ t.sensor.pendingExpiry = false ∧ t.sensor.dataOut = [])
      ∧ (s.drive.state ≠ .offline → s.sensor.pendingExpiry = true →
          t.sensor.exchange
            = (if (if s.config.readyPolarity = 0 then ready else !ready) = true then .shifting else .readyWait)
          ∧ t.sensor.select0 = true ∧ t.sensor.sampleTimer = some s.config.samplePeriod.toNat
          ∧ t.sensor.pendingExpiry = false)

/-- A good sample (R25, R27, R32, R34, R46, R47): signature and range pass, the bend joins the window, the lead is the
truncated mean with the direction sign, the request and the lag mark are judged with hysteresis, the consecutive count
is 0 and the fault mark clear. -/
def Obligations.GoodSampleJoinsWindow : Prop :=
  ∀ (s : State) (bend : BitVec 16) (ready : Bool), s.DriveInv → s.sensor.exchange = .shifting →
    s.drive.state ≠ .offline → -1500 ≤ bend.toInt → bend.toInt ≤ 1500 →
    ∃ t, exec (.shiftComplete (s.config.signature ++ bend) ready) s = .next t ∧
      let g := s.governor
      let window := if g.window.length < g.size then g.window ++ [bend.toInt] else g.window.tail ++ [bend.toInt]
      let lead := window.sum.tdiv window.length * s.drive.direction.sign
      t.governor = { g with
        window := window
        lead := some lead
        runRequest := if g.levels.start ≤ lead then true else if lead ≤ g.levels.stop then false else g.runRequest
        lagMark := if g.levels.hold ≤ lead then true else if lead ≤ g.levels.resume then false else g.lagMark }
      ∧ t.sensor.consecutiveFailures = 0 ∧ t.sensor.failureTotal = s.sensor.failureTotal
      ∧ t.sensor.faultMark = false ∧ t.claim.reasons.sensor = false
      ∧ t.drive.direction = s.drive.direction ∧ s.SameOuter t ∧ s.SameOrders t ∧ s.SameLines t
      ∧ t.stride.strideCount = s.stride.strideCount ∧ t.stride.runTime = s.stride.runTime
      ∧ t.stride.stallEvents = s.stride.stallEvents ∧ t.stride.creepPulses = s.stride.creepPulses

/-- What a new lead does to the drive (R33, R35, R36, R39, R130): a lead of magnitude X or more in a following state is
a MISALIGN halt; otherwise the request starts or stops a station in WAIT or RUN, a lead that becomes known in MUSTER has
the census evaluated, and every other state stays; the LAG reason stands while the mark is set in a following state.
Which of a changed request and the halt is taken first is left open (log 9): the prior state is the state held, or WAIT
when the request has been withdrawn in RUN, or RUN when it has become present in WAIT at a rested station. That an entry
to RUN, or to a state after the census, is made whole before the test of the lead is the model's choice (log 35). What a
seize leaves of an ANSWER cut and of idle receivers is the model's (logs 28 and 30). -/
def Obligations.NewLeadDecidesDriveState : Prop :=
  ∀ (s : State) (bend : BitVec 16) (ready : Bool), s.DriveInv → s.isPacer = false → s.sensor.exchange = .shifting →
    s.drive.state ≠ .offline → -1500 ≤ bend.toInt → bend.toInt ≤ 1500 →
    ∃ t, exec (.shiftComplete (s.config.signature ++ bend) ready) s = .next t ∧
      let u : State := { s with governor := t.governor }
      let misaligned : Prop := s.isFollowing = true ∧ u.leadBeyondHalt = true
      (misaligned → ∃ prior, u.HaltsWith t .misalign (some s.own) prior
        ∧ (prior = s.drive.state
          ∨ s.drive.state = .run ∧ t.governor.runRequest = false ∧ prior = .wait
          ∨ s.drive.state = .wait ∧ t.governor.runRequest = true ∧ s.drive.rest = .rested ∧ prior = .run))
      ∧ (¬misaligned →
          (s.drive.state = .wait → t.drive.state =
            if t.governor.runRequest = true ∧ s.drive.rest = .rested then .run else .wait)
          ∧ (s.drive.state = .run → t.drive.state = if t.governor.runRequest = true then .run else .wait)
          ∧ (s.drive.state = .muster → s.governor.lead ≠ none → t.drive.state = .muster)
          ∧ (s.drive.state = .muster → s.governor.lead = none →
              (∀ b, u.censusBlocker = some b → t.drive.state = .muster ∧ t.orders.blocker = some b)
              ∧ (u.censusBlocker = none → t.drive.state = u.stateAfterMuster))
          ∧ (s.drive.state ≠ .wait → s.drive.state ≠ .run → s.drive.state ≠ .muster → t.drive.state = s.drive.state))
      ∧ t.claim.reasons.lag = (t.governor.lagMark && t.isFollowing)

/-- A failed exchange at a follower (R48 to R52, Table 3-3), by any of the four failures: both counts rise; in a
following state at the limit of the mode a SENSOR halt with lead 0; else SKIP keeps the window, the other modes empty it
and so stop a station in RUN, and RETRY in a following state presents the SENSOR reason. A window that empties withdraws
LAG. That SKIP keeps the window of a HALTED station, whatever the count, is the model's choice (log 29: R49, R52 and
Table 3-3 against R51 and R55). Which of the request and the halt is taken first is left open (log 9), so the prior
state has two values. What a seize leaves of an ANSWER cut and of
idle receivers is the model's (logs 28 and 30). -/
def Obligations.FailedExchangeActsByMode : Prop :=
  ∀ (s : State) (i : Instr) (ready : Bool) (word : BitVec 24), s.DriveInv → s.isPacer = false →
    s.drive.state ≠ .offline →
    (s.sensor.exchange = .readyWait ∧ i = .readyTimeout ready
      ∨ s.sensor.exchange = .shifting ∧ (i = .short ready
        ∨ i = .shiftComplete word ready ∧ (word.extractLsb' 16 8 ≠ s.config.signature
          ∨ (word.extractLsb' 0 16).toInt < -1500 ∨ 1500 < (word.extractLsb' 0 16).toInt))) →
    ∃ t, exec i s = .next t ∧
      let count := if s.sensor.consecutiveFailures = 255 then 255 else s.sensor.consecutiveFailures + 1
      let limit := match s.config.sensing with
        | .skip => 8
        | .retry => 5
        | .halt => 1
      let halts : Prop := s.isFollowing = true ∧ limit ≤ count.toNat
      let keeps : Prop := s.config.sensing = .skip ∧ ¬halts
      let emptied : Governor := { s.governor with window := [], lead := none, runRequest := false, lagMark := false }
      t.sensor.consecutiveFailures = count
      ∧ t.sensor.failureTotal = (if s.sensor.failureTotal = 65535 then 65535 else s.sensor.failureTotal + 1)
      ∧ (keeps → t.governor = s.governor) ∧ (¬keeps → t.governor = emptied ∧ t.claim.reasons.lag = false)
      ∧ (halts → ∃ prior, State.HaltsWith { s with governor := emptied } t .sensor (some s.own) prior
          ∧ (prior = s.drive.state ∨ s.drive.state = .run ∧ prior = .wait))
      ∧ (¬halts → s.drive.state = .run → ¬keeps → t.drive.state = .wait)
      ∧ (¬halts → s.drive.state ≠ .run ∨ keeps → t.drive.state = s.drive.state)
      ∧ (¬halts → s.isFollowing = true → s.config.sensing = .retry →
          t.sensor.faultMark = true ∧ t.claim.reasons.sensor = true)
      ∧ t.drive.direction = s.drive.direction ∧ s.SameOuter t ∧ s.SameOrders t ∧ s.SameLines t
      ∧ t.stride.strideCount = s.stride.strideCount ∧ t.stride.runTime = s.stride.runTime
      ∧ t.stride.stallEvents = s.stride.stallEvents ∧ t.stride.creepPulses = s.stride.creepPulses

/-! ### The wheel, the loop sense and the pace -/

/-- The two measured inputs (R59, R136), and the coast window, which stops when it has run out (R68): a new level starts
its measurement afresh, and a level that is not new, or a release of a filter that is RELEASED or in a reset, does
nothing. A release leaves the input level low and held 20 ms (the model's choice, log 1). -/
def Obligations.InputChangesRestartMeasurement : Prop :=
  ∀ (s : State) (level : Bool),
    (s.stride.wheelHigh ≠ level → exec (.wheelInputChange level) s = .next
      { s with stride := { s.stride with wheelHigh := level, heldFor := 0 } })
    ∧ (s.stride.wheelHigh = level → exec (.wheelInputChange level) s = .next s)
    ∧ (s.halt.rawSense ≠ level → exec (.loopSenseChange level) s = .next
      { s with halt := { s.halt with rawSense := level, differsFor := 0 } })
    ∧ (s.halt.rawSense = level → exec (.loopSenseChange level) s = .next s)
    ∧ (s.inReset = false → s.stride.filterAsserted = true → exec .pulseFilterRelease s = .next
      { s with stride := { s.stride with filterAsserted := false, wheelHigh := false, heldFor := 20 } })
    ∧ (s.inReset = true ∨ s.stride.filterAsserted = false → exec .pulseFilterRelease s = .next s)
    ∧ (s.stride.coastWindow = some 0 →
        exec .coastWindowExpiry s = .next { s with stride := { s.stride with coastWindow := none } })

/-- A wheel pulse (R59, R60): accepted from a RELEASED filter outside a reset, it steps the stride count by one modulo
65536, up in FORWARD and down in REVERSE; in OFFLINE and before the checks it does nothing else. The input level and
the time held that the pulse leaves are the model's (log 1). -/
def Obligations.WheelPulseStepsStrideCount : Prop :=
  ∀ s : State,
    (s.inReset = true ∨ s.stride.filterAsserted = true → exec .wheelPulse s = .next s)
    ∧ (s.inReset = false → s.stride.filterAsserted = false →
        let count := match s.drive.direction with
          | .forward => s.stride.strideCount + 1
          | .reverse => s.stride.strideCount - 1
        ∃ t, exec .wheelPulse s = .next t
          ∧ t.stride.strideCount = count ∧ t.stride.filterAsserted = true ∧ t.stride.wheelHigh = true
          ∧ t.stride.runTime = s.stride.runTime ∧ t.stride.stallEvents = s.stride.stallEvents
          ∧ t.sensor.failureTotal = s.sensor.failureTotal ∧ s.SameOuter t ∧ s.SameOrders t ∧ s.SameBend t
          ∧ s.SameLines t
          ∧ (s.drive.state = .offline ∨ s.loader.state ≠ .passed → t = { s with stride := { s.stride with
              filterAsserted := true, wheelHigh := true, heldFor := 20, strideCount := count } }))

/-- A pulse past the checks and outside OFFLINE, by the contactor view. ON (R61, R66): it counts toward the segment up
to 4 and restarts the stall timer; the fourth is a stall clear, which withdraws the STALL reason. OFF (R58, R68, R69):
not classed in mode OFF, coast inside the window and the allowance, else creep, which halts the station when the creep
count becomes one more than the limit and joins the later causes of a station already halted. The input level and the
time held that the pulse leaves are the model's (log 1). What a seize leaves of an ANSWER cut and of idle receivers is
the model's (logs 28 and 30). -/
def Obligations.PulseByContactorView : Prop :=
  ∀ s : State, s.DriveInv → s.inReset = false → s.stride.filterAsserted = false → s.active = true →
    (s.stride.contactorOn = true →
    ∃ t, exec .wheelPulse s = .next t
      ∧ t.stride = { s.stride with
          filterAsserted := true, wheelHigh := true, heldFor := 20, strideCount := t.stride.strideCount
          segmentPulses := min (s.stride.segmentPulses + 1) 4
          stallTimer := if s.config.stalling = .off then s.stride.stallTimer else some (10 * s.config.stallTime.toNat)
          consecutiveStalls := if s.stride.segmentPulses = 3 then 0 else s.stride.consecutiveStalls
          stallMark := if s.stride.segmentPulses = 3 then false else s.stride.stallMark }
      ∧ t.claim.reasons =
          (if s.stride.segmentPulses = 3 then { s.claim.reasons with stall := false } else s.claim.reasons)
      ∧ (s.stride.segmentPulses ≠ 3 → t.claim = s.claim ∧ t.line = s.line)
      ∧ t.drive = s.drive ∧ t.halt = s.halt ∧ t.holds = s.holds ∧ t.sensor = s.sensor ∧ t.orders = s.orders
      ∧ t.pace = s.pace)
    ∧ (s.stride.contactorOn = false →
    ∃ t, exec .wheelPulse s = .next t ∧
      let accepted : StrideMonitor := { s.stride with
        filterAsserted := true, wheelHigh := true, heldFor := 20, strideCount := t.stride.strideCount }
      let coast : Prop := s.stride.coastWindow ≠ none ∧ s.stride.coastCount < s.config.coastAllowance.toNat
      let creep : StrideMonitor := { accepted with
        creepCount := if s.stride.creepCount = 255 then 255 else s.stride.creepCount + 1
        creepPulses := if s.stride.creepPulses = 65535 then 65535 else s.stride.creepPulses + 1 }
      (s.config.stalling = .off → t = { s with stride := accepted })
      ∧ (s.config.stalling ≠ .off → coast →
          t = { s with stride := { accepted with coastCount := s.stride.coastCount + 1 } })
      ∧ (s.config.stalling ≠ .off → ¬coast → s.stride.creepCount.toNat ≠ s.config.creepLimit.toNat →
          t = { s with stride := creep })
      ∧ (s.config.stalling ≠ .off → ¬coast → s.stride.creepCount.toNat = s.config.creepLimit.toNat →
          t.stride.creepPulses = creep.creepPulses
          ∧ (s.drive.state ≠ .halted →
              State.HaltsWith { s with stride := creep } t .creep (some s.own) s.drive.state)
          ∧ (s.drive.state = .halted → ∃ r, t = { s with stride := creep, halt := { s.halt with record := r } }
              ∧ r = (if s.halt.record.cause = some .creep then s.halt.record
                  else { s.halt.record with later := { s.halt.record.later with creep := true } }))))

/-- A stall timer that has run out takes a stall (R62 to R64, R67), and one that a pulse taken first has started again
takes none. The stall is counted; in RETRY mode within the limit the station enters STALLED with the
retry pause running and presents STALL outboard to the end of the machine; past the limit and in HALT mode it is a STALL
halt. What a seize leaves of an ANSWER cut and of idle receivers is the model's (logs 28 and 30). -/
def Obligations.StallTaken : Prop :=
  ∀ s : State, s.DriveInv → s.ClaimInv → s.leadBeyondHalt = false → s.drive.state = .run →
    (s.stride.stallTimer ≠ some 0 → exec .stallTimerExpiry s = .next s)
    ∧ (s.stride.stallTimer = some 0 → ∃ t, exec .stallTimerExpiry s = .next t
      ∧ t.stride.stallEvents = (if s.stride.stallEvents = 255 then 255 else s.stride.stallEvents + 1)
      ∧ t.stride.stallTimer = none ∧ t.stride.strideCount = s.stride.strideCount
      ∧ t.stride.runTime = s.stride.runTime ∧ t.stride.creepPulses = s.stride.creepPulses
      ∧ s.SameOuter t ∧ s.SameOrders t ∧ s.SameBend t ∧ s.SameLines t
      ∧ (s.config.stalling = .retry → s.stride.consecutiveStalls + 1 ≤ s.config.retryLimit.toNat →
          t.drive.state = .stalled ∧ t.drive.runOutput = false ∧ t.drive.rest = .resting 10
          ∧ t.stride.retryPause = some (10 * s.config.retryPause.toNat) ∧ t.stride.stallMark = true
          ∧ t.stride.consecutiveStalls = s.stride.consecutiveStalls + 1 ∧ t.stride.contactorOn = false
          ∧ t.stride.coastWindow = some 30 ∧ t.stride.coastCount = 0 ∧ t.line.statusSlot = true
          ∧ (s.isPacer = false → t.claim.reasons.stall = true ∧ t.claim.reach = max
              (if t.claim.reasons.lag = true then 1 else 0) (s.towers - s.own.toNat)))
      ∧ (s.config.stalling = .halt
          ∨ s.config.stalling = .retry ∧ s.config.retryLimit.toNat < s.stride.consecutiveStalls + 1 →
          s.HaltsWith t .stall (some s.own) .run))

/-- A retry pause that has run out ends (R65): from STALLED the state settles at tiers 7 to 9. In another state no pause
runs (R65), and that its end then changes nothing else is the model's choice (log 1). -/
def Obligations.RetryPauseEndSettles : Prop :=
  ∀ s : State, s.DriveInv → s.leadBeyondHalt = false → s.stride.retryPause = some 0 →
    ∃ t, exec .retryPauseEnd s = .next t ∧ t.stride.retryPause = none
      ∧ (s.drive.state = .stalled → t.drive.state =
          if s.holds.isEmpty = false then .held
          else if s.runRequest = true ∧ s.drive.rest = .rested then .run
          else .wait)
      ∧ (s.drive.state ≠ .stalled → t = { s with stride := { s.stride with retryPause := none } })
      ∧ s.SameOuter t ∧ s.SameOrders t ∧ s.SameBend t ∧ s.SameTallies t ∧ s.SameLines t

/-- The two boundaries of the pacer's period (R97), each while the timer is RUNNING and once the position has reached
it: at an ON length above 0 and below the period the request becomes absent and RUN gives WAIT; at the period's end
position 0, the pending pace in force,
the ON length afresh and the request present exactly when it is above 0. A request that does not change is not
reported. A boundary that the position has not reached does nothing (the model's choice, log 1). -/
def Obligations.PaceBoundaries : Prop :=
  ∀ s : State, s.DriveInv → s.isPacer = true → s.leadBeyondHalt = false → s.pace.running = true →
    let period := 10 * s.config.pacePeriod.toNat
    (0 < s.pace.onLength → s.pace.onLength < period → s.pace.onLength ≤ s.pace.position →
      ∃ t, exec .endOfOnPart s = .next t
      ∧ t.drive.state = (if s.drive.state = .run then .wait else s.drive.state)
      ∧ t.pace = { s.pace with request := false }
      ∧ (s.pace.request = false → t = { s with pace := t.pace })
      ∧ s.SameOuter t ∧ s.SameOrders t ∧ s.SameBend t ∧ s.SameTallies t ∧ s.SameLines t)
    ∧ (¬(0 < s.pace.onLength ∧ s.pace.onLength < period ∧ s.pace.onLength ≤ s.pace.position) →
        exec .endOfOnPart s = .next s)
    ∧ (s.pace.position < period → exec .endOfPeriod s = .next s)
    ∧ (period ≤ s.pace.position → ∃ t, exec .endOfPeriod s = .next t ∧
        let pace := s.pace.pendingPace.getD s.pace.pace
        let onLength := period * pace / 100
        t.pace = { s.pace with position := 0, pace := pace, pendingPace := none, onLength := onLength,
                               request := decide (0 < onLength) }
        ∧ t.drive.state = (if s.drive.state = .run ∧ onLength = 0 then .wait
            else if s.drive.state = .wait ∧ 0 < onLength ∧ s.drive.rest = .rested then .run
            else s.drive.state)
        ∧ (t.pace.request = s.pace.request → t = { s with pace := t.pace })
        ∧ s.SameOuter t ∧ s.SameOrders t ∧ s.SameBend t ∧ s.SameTallies t ∧ s.SameLines t)

/-! ### Frames and the roster -/

/-- What a good frame of another station does to its line (R150 to R152): counted, the line ALIVE with its quiet timer
at the full quiet time, the receiver IDLE, and the yield bias cleared when it is the send line; nothing else. And a good
frame that is not handed on (R105, R147, R149, R150): nothing while the station collects nothing or the receiver is
DISCARDING, the end of the collection for the station's own readback, and the line alone in OFFLINE. The own-readback
mark and the end of a collection are the model's form of it (logs 6 and 7), and so is the quiet time of a station whose
checks failed (log 33). Idle times and dominant runs are shown as the least known (the model's form, log 4). -/
def Obligations.GoodFrameRefreshesLine : Prop :=
  (∀ (s : State) (l : Line), let y := s.line.lineState l
    s.noteGood l = { s with line :=
      { s.line.setLineState l { y with
          receiver := .idle, characters := [], ownFrame := false, idleTime := max y.idleTime 2, armed := true
          dominantRun := 0, alive := true, quietTimer := some (10 * s.config.lostLimit.toNat)
          counters := { y.counters with
            good := if y.counters.good = 65535 then 65535 else y.counters.good + 1 } } with
        yieldBias := if l = s.line.sendLine then false else s.line.yieldBias } })
  ∧ (∀ (s : State) (i : Instr) (h : Header) (k : FrameClass), frameOf i = some (h, k) →
    (s.inReset = true ∨ s.loader.state = .reading ∨ s.line.transmitter = .seizing
      ∨ (s.line.lineState h.line).receiver = .discarding → exec i s = .next s)
    ∧ (s.collecting = true → (s.line.lineState h.line).receiver ≠ .discarding →
        s.line.readsBack h.line = true ∨ (s.line.lineState h.line).ownFrame = true →
        exec i s = .next { s with line := s.line.setLineState h.line { s.line.lineState h.line with
          receiver := .idle, characters := [], ownFrame := false
          idleTime := max (s.line.lineState h.line).idleTime 2, armed := true, dominantRun := 0 } })
    ∧ (s.Hears h → s.active = false → exec i s = .next (s.noteGood h.line)))

/-- A frame of the own position (R12, R106): OFFLINE with the cause POSITION_CONFLICT from every state, leaving no trace
in the roster. -/
def Obligations.OwnPositionIsAConflict : Prop :=
  ∀ (s : State) (i : Instr) (h : Header) (k : FrameClass), frameOf i = some (h, k) → s.Hears h → s.active = true →
    h.source = s.own →
    ∃ t, exec i s = .next t ∧ t.drive.state = .offline ∧ t.loader = { s.loader with offlineCause := some .positionConflict }
      ∧ t.drive.runOutput = (if s.drive.state = .run then false else s.drive.runOutput)
      ∧ (s.drive.state = .run → t.drive.rest = .resting 10)
      ∧ t.drive.lamp = true ∧ t.drive.blinkPhase = 0 ∧ t.drive.blinkTimer = some 5
      ∧ t.drive.direction = s.drive.direction ∧ t.halt = { s.halt with loopClosed := false }
      ∧ t.line.transmitter = .released ∧ t.line.claimSlot = none ∧ t.line.answerSlot = none
      ∧ t.line.statusSlot = false ∧ t.line.reportTimer = none
      ∧ (∀ p, t.holds.recordOf p = none) ∧ t.claim = ClaimUnit.reset ∧ t.stride.coastWindow = none
      ∧ t.roster = s.roster ∧ t.governor = s.governor ∧ s.SameOrders t ∧ s.SameTallies t
      ∧ t.localTime = s.localTime

/-- A frame from above N (R107): two counts, and nothing else beyond the line. -/
def Obligations.StrangersAreCounted : Prop :=
  ∀ (s : State) (i : Instr) (h : Header) (k : FrameClass), frameOf i = some (h, k) → s.Hears h → s.active = true →
    h.source ≠ s.own → s.towers < h.source.toNat →
    ∃ r : Roster, exec i s = .next { s.noteGood h.line with roster := r }
      ∧ r.strangerTotal = (if s.roster.strangerTotal = 65535 then 65535 else s.roster.strangerTotal + 1)
      ∧ r.recordOf h.source = { s.roster.recordOf h.source with
          accepted := if (s.roster.recordOf h.source).accepted = 65535 then 65535
                      else (s.roster.recordOf h.source).accepted + 1 }
      ∧ (∀ p, p ≠ h.source → r.recordOf p = s.roster.recordOf p)
      ∧ r.duplicateTotal = s.roster.duplicateTotal ∧ r.notAcceptedTotal = s.roster.notAcceptedTotal

/-- A frame whose kind and source Table 10-3 does not list (R108): counted, its source's record untouched. -/
def Obligations.RefusedFramesAreCounted : Prop :=
  ∀ (s : State) (i : Instr) (h : Header) (k : FrameClass), frameOf i = some (h, k) → s.Hears h → s.active = true →
    h.source ≠ s.own → h.source.toNat ≤ s.towers →
    ¬(match k with
      | .status => True
      | .order => h.source = 0
      | .ask => h.source = 0
      | .hold => h.source ≠ 0
      | .free => h.source ≠ 0
      | .answer => h.source ≠ 0) →
    exec i s = .next { s.noteGood h.line with roster := { s.roster with
      notAcceptedTotal := if s.roster.notAcceptedTotal = 65535 then 65535 else s.roster.notAcceptedTotal + 1 } }

/-- The sequence of a frame that passed the acceptance table (R109): from a CURRENT or STALE record an equal number is a
duplicate, counted and dropped, and any other adds its gap to the missed count; from an ABSENT or LOST record the frame
is neither tested nor adds a gap (R173 reads otherwise of frames lost in the read: log 34). -/
def Obligations.SequenceIsCompared : Prop :=
  ∀ (s : State) (i : Instr) (h : Header) (k : FrameClass), frameOf i = some (h, k) → s.Hears h → s.active = true →
    h.source ≠ s.own → h.source.toNat ≤ s.towers → k.acceptsFrom h.source = true →
    let r := s.roster.recordOf h.source
    let known : Prop := r.presence = .current ∨ r.presence = .stale
    (known → r.lastSeq = some h.seq → exec i s = .next { s.noteGood h.line with roster := { s.roster with
        duplicateTotal := if s.roster.duplicateTotal = 65535 then 65535 else s.roster.duplicateTotal + 1 } })
    ∧ (¬(known ∧ r.lastSeq = some h.seq) → ∃ t, exec i s = .next t
        ∧ (t.roster.recordOf h.source).accepted = (if r.accepted = 65535 then 65535 else r.accepted + 1)
        ∧ t.roster.duplicateTotal = s.roster.duplicateTotal
        ∧ (∀ last, known → r.lastSeq = some last →
            (t.roster.recordOf h.source).missed.toNat = min (r.missed.toNat + (h.seq - last - 1).toNat) 255)
        ∧ (¬known → (t.roster.recordOf h.source).missed = r.missed))

/-- An accepted frame of any kind (R110, R111): its source's record CURRENT at age 0 with the frame's sequence, one more
frame, the reported fields replaced whole by a STATUS, made absent by another frame when the record was ABSENT or LOST,
and kept otherwise; no other record and no total changes. An ANSWER does nothing else, but for the census told of a
change of presence (R112, R114). -/
def Obligations.AcceptedFrameUpdatesRecord : Prop :=
  (∀ (s : State) (i : Instr) (h : Header) (k : FrameClass), frameOf i = some (h, k) → s.Accepts h k →
    let r := s.roster.recordOf h.source
    let known : Bool := decide (r.presence = .current ∨ r.presence = .stale)
    ∃ t, exec i s = .next t
      ∧ (t.roster.recordOf h.source).presence = .current ∧ (t.roster.recordOf h.source).age = 0
      ∧ (t.roster.recordOf h.source).lastSeq = some h.seq
      ∧ (t.roster.recordOf h.source).accepted = (if r.accepted = 65535 then 65535 else r.accepted + 1)
      ∧ (t.roster.recordOf h.source).expected = r.expected
      ∧ (∀ b, i = .statusFrame h b → (t.roster.recordOf h.source).reported = some
          { state := b.state, order := if b.flags.getLsbD 0 = true then none else some h.order
            ready := b.flags.getLsbD 3, cause := b.cause, origin := b.origin })
      ∧ (k ≠ .status → (t.roster.recordOf h.source).reported = if known = true then r.reported else none)
      ∧ (∀ p, p ≠ h.source → t.roster.recordOf p = s.roster.recordOf p)
      ∧ t.roster.duplicateTotal = s.roster.duplicateTotal ∧ t.roster.strangerTotal = s.roster.strangerTotal
      ∧ t.roster.notAcceptedTotal = s.roster.notAcceptedTotal
      ∧ (s.noteGood h.line).SameLines t ∧ t.localTime = s.localTime ∧ t.loader = s.loader)
  ∧ ∀ (s : State) (h : Header) (item argument : Byte) (data : BitVec 64), s.Accepts h .answer →
    exec (.answerFrame h item argument data) s = .next (s.afterHearing h id)

/-- The stale age passes (R113 to R115): a CURRENT record of another expected position, older than the stale age,
becomes STALE and a census in progress is blocked; any other record, and one heard since, stays as it is. The lost limit
(R138, R141): a CURRENT or STALE record older than it becomes LOST; underway that is a PANEL_LOST or PEER_LOST halt with
the lost position as origin, in HALTED a later cause, in IDLE nothing more. What a seize leaves of an ANSWER cut and of
idle receivers is the model's (logs 28 and 30). -/
def Obligations.PresenceLimits : Prop :=
  ∀ (s : State) (p : Position), s.DriveInv → s.RosterInv → s.active = true →
    let r := s.roster.recordOf p
    let cause : HaltCause := if p = 0 then .panelLost else .peerLost
    let stale : Prop := 3 * (10 + 5 * s.config.reportCode.toNat) < r.age.toNat
    let lost : Prop := 10 * s.config.lostLimit.toNat < r.age.toNat
    (p ≠ s.own → r.expected = true → r.presence = .current → stale → ∃ t, exec (.staleAgePassed p) s = .next t
      ∧ t.roster.recordOf p = { r with presence := .stale }
      ∧ (∀ q, q ≠ p → t.roster.recordOf q = s.roster.recordOf q)
      ∧ t = { s with roster := { s.roster with records := t.roster.records }
                     orders := { s.orders with blocker := t.orders.blocker } }
      ∧ (s.orders.counting = false → t.orders = s.orders)
      ∧ (s.orders.counting = true → t.orders.blocker ≠ none))
    ∧ (p = s.own ∨ r.expected = false ∨ r.presence ≠ .current ∨ ¬stale → exec (.staleAgePassed p) s = .next s)
    ∧ (p ≠ s.own → r.expected = true → r.presence = .current ∨ r.presence = .stale → lost →
      ∃ t, exec (.lostLimitPassed p) s = .next t
      ∧ t.roster.recordOf p = { r with presence := .lost }
      ∧ (∀ q, q ≠ p → t.roster.recordOf q = s.roster.recordOf q)
      ∧ (s.drive.state.isUnderway = true → s.HaltsWith t cause (some p) s.drive.state)
      ∧ (s.drive.state.isUnderway = false → t.drive = s.drive)
      ∧ (s.drive.state = .idle → t.halt = s.halt)
      ∧ (s.drive.state = .halted → t.halt.record = if s.halt.record.cause = some cause then s.halt.record
          else { s.halt.record with later := if p = 0 then { s.halt.record.later with panelLost := true }
                                             else { s.halt.record.later with peerLost := true } }))
    ∧ (p = s.own ∨ r.expected = false ∨ r.presence = .absent ∨ r.presence = .lost ∨ ¬lost →
        exec (.lostLimitPassed p) s = .next s)

/-! ### Orders and the census -/

/-- An ORDER frame at the Order Unit (R120): an undefined action or direction code is refused and counted; with the
order set, so is a number that is not ahead; any other is adopted, a pace above 100 as 100. -/
def Obligations.OrderIsJudged : Prop :=
  ∀ (s : State) (i : Instr) (h : Header) (action direction pace : Byte), s.DriveInv → s.Accepts h .order →
    (i = .stopOrder h direction pace ∧ action = 0 ∨ i = .runOrder h direction pace ∧ action = 1
      ∨ i = .clearOrder h direction pace ∧ action = 2 ∨ i = .orderUndefinedAction h action direction pace) →
    let u := s.afterHearing h id
    let adopted : Prop := action.toNat ≤ 2 ∧ direction.toNat ≤ 1 ∧ (u.orders.unset = true
      ∨ 1 ≤ (h.order - u.orders.number).toNat ∧ (h.order - u.orders.number).toNat ≤ 127)
    ∃ t, exec i s = .next t
      ∧ (¬adopted → t = { u with orders := { u.orders with
          refused := if u.orders.refused = 255 then 255 else u.orders.refused + 1 } })
      ∧ (adopted → t.orders.unset = false ∧ t.orders.number = h.order ∧ t.orders.action.code = action
          ∧ t.orders.direction.code = direction ∧ t.orders.pace = min pace.toNat 100
          ∧ t.orders.refused = u.orders.refused)

/-- An adopted STOP, or a CLEAR outside HALTED (R122, R124, R125, Table 8-1): IDLE from every underway state, with its
timers stopped; IDLE stays; a STOP in HALTED changes neither the drive nor the halt; in each the hold set and the
claim are emptied, and the claim slot with them. The adoption empties the hold set and settles once (the model's
reading, log 10). -/
def Obligations.StopAndClearLeadToIdle : Prop :=
  ∀ (s : State) (i : Instr) (h : Header) (direction pace : Byte) (d : Direction), s.DriveInv → s.Accepts h .order →
    directionOfCode direction = some d → let u := s.afterHearing h id
    u.numberAhead h.order = true →
    i = .stopOrder h direction pace ∨ i = .clearOrder h direction pace ∧ u.drive.state ≠ .halted →
    ∃ t, exec i s = .next t
      ∧ t.orders.unset = false ∧ t.orders.number = h.order ∧ t.orders.direction = d
      ∧ t.orders.pace = min pace.toNat 100
      ∧ (∀ p, t.holds.recordOf p = none) ∧ t.claim = ClaimUnit.reset ∧ t.line.claimSlot = none
      ∧ (u.drive.state = .halted → t.drive = u.drive ∧ t.halt = u.halt)
      ∧ (u.drive.state = .idle → t.drive = u.drive ∧ t.halt = u.halt)
      ∧ (u.drive.state.isUnderway = true →
          t.drive.state = .idle ∧ t.drive.runOutput = false ∧ t.drive.direction = u.drive.direction
          ∧ t.drive.lamp = false ∧ t.line.statusSlot = true ∧ t.halt = u.halt
          ∧ t.stride.stallMark = false ∧ t.stride.consecutiveStalls = 0 ∧ t.sensor.faultMark = false)
      ∧ (u.drive.state = .run → t.drive.rest = .resting 10)
      ∧ (u.drive.state = .dwell → t.drive.dwellTimer = none)
      ∧ (u.drive.state = .stalled → t.stride.retryPause = none)
      ∧ (u.drive.state = .muster → t.orders.musterTimer = none ∧ t.orders.counting = false)
      ∧ (u.drive.state.isUnderway = true → u.isPacer = true → t.pace.running = false)
      ∧ t.governor = u.governor ∧ u.SameOuter t ∧ u.SameTallies t ∧ u.SameLines t

/-- An adopted CLEAR in HALTED (R37, R125, R144): kept while the lead is known and its magnitude is at least X, else
released to IDLE with the loop closed, the record kept whole and the creep count 0. -/
def Obligations.ClearDecidesTheHalt : Prop :=
  ∀ (s : State) (h : Header) (direction pace : Byte) (d : Direction), s.DriveInv → s.Accepts h .order →
    directionOfCode direction = some d → let u := s.afterHearing h id
    u.numberAhead h.order = true → u.drive.state = .halted →
    let kept : Prop := ∃ lead : Int, u.governor.lead = some lead ∧ u.governor.levels.halt ≤ (lead.natAbs : Int)
    ∃ t, exec (.clearOrder h direction pace) s = .next t
      ∧ t.orders.unset = false ∧ t.orders.number = h.order ∧ t.orders.action = .clear ∧ t.orders.direction = d
      ∧ (kept → t.drive = u.drive ∧ t.halt = u.halt)
      ∧ (¬kept → t.drive.state = .idle ∧ t.drive.lamp = false ∧ t.drive.runOutput = false
          ∧ t.drive.direction = u.drive.direction ∧ t.halt = { u.halt with latched := false, loopClosed := true }
          ∧ t.stride.creepCount = 0 ∧ t.line.statusSlot = true)
      ∧ t.governor = u.governor ∧ u.SameOuter t ∧ u.SameTallies t ∧ u.SameLines t

/-- An adopted RUN (R122, R126, Table 8-1), against the DIRECTION output and the state it finds. The adoption empties
the hold set and settles once (the model's reading, log 10). -/
def Obligations.RunOrderByState : Prop :=
  ∀ (s : State) (h : Header) (direction pace : Byte) (d : Direction), s.DriveInv → s.Accepts h .order →
    directionOfCode direction = some d → let u := s.afterHearing h id
    u.numberAhead h.order = true →
    let v : State := { u with
      orders := { u.orders with unset := false, number := h.order, action := .run, direction := d
                                pace := min pace.toNat 100 }
      holds := { u.holds with records := Vector.replicate 32 none }
      pace := if u.isPacer = true then { u.pace with pendingPace := some (min pace.toNat 100) } else u.pace }
    let same : Prop := d = u.drive.direction
    ∃ t, exec (.runOrder h direction pace) s = .next t
      ∧ t.orders.unset = false ∧ t.orders.number = h.order ∧ t.orders.action = .run ∧ t.orders.direction = d
      ∧ t.orders.pace = min pace.toNat 100
      ∧ (∀ p, t.holds.recordOf p = none) ∧ t.claim.announced = false
      ∧ (u.drive.state = .halted → t.drive = u.drive ∧ t.halt = u.halt)
      ∧ (u.drive.state ≠ .halted → ¬same →
          t.drive.state = .dwell ∧ t.drive.direction = d ∧ t.drive.runOutput = false
          ∧ t.drive.dwellTimer = some (10 * u.config.reversalDwell.toNat)
          ∧ t.governor = { u.governor with window := [], lead := none, runRequest := false, lagMark := false }
          ∧ (u.drive.state = .run → t.drive.rest = .resting 10)
          ∧ (u.drive.state = .muster → t.orders.musterTimer = none ∧ t.orders.counting = false)
          ∧ (u.drive.state = .stalled → t.stride.retryPause = none)
          ∧ t.stride.stallMark = false ∧ t.stride.consecutiveStalls = 0 ∧ t.sensor.faultMark = false
          ∧ t.line.statusSlot = true)
      ∧ (same → t.drive.direction = d ∧ t.governor = u.governor)
      ∧ (u.drive.state = .idle → same →
          (∀ b, v.censusBlocker = some b → t.drive.state = .muster ∧ t.orders.counting = true
            ∧ t.orders.musterTimer = some (10 * u.config.musterTime.toNat) ∧ t.orders.blocker = some b)
          ∧ (v.censusBlocker = none → t.drive.state = v.stateAfterMuster))
      ∧ (u.drive.state = .muster → same →
          (∀ b, v.censusBlocker = some b → t.drive = u.drive ∧ t.orders.counting = true
            ∧ t.orders.musterTimer = u.orders.musterTimer ∧ t.orders.blocker = some b ∧ t.line.statusSlot = true)
          ∧ (v.censusBlocker = none → t.drive.state = v.stateAfterMuster))
      ∧ (u.drive.state = .dwell ∨ u.drive.state = .wait ∨ u.drive.state = .run ∨ u.drive.state = .stalled → same →
          t.drive = u.drive ∧ t.stride.retryPause = u.stride.retryPause)
      ∧ (u.drive.state = .held → same → u.leadBeyondHalt = false →
          t.drive.state = if u.runRequest = true ∧ u.drive.rest = .rested then .run else .wait)
      ∧ (u.isPacer = true → u.drive.state ≠ .muster → u.drive.state ≠ .idle →
          t.pace.pendingPace = some (min pace.toNat 100))
      ∧ (u.isPacer = false → u.isFollowing = true → t.isFollowing = true →
          t.claim.reasons = { lag := u.governor.lagMark, stall := u.stride.stallMark, sensor := u.sensor.faultMark })
      ∧ u.SameOuter t ∧ u.SameTallies t ∧ u.SameLines t

/-- The panel's STATUS (R121, R123): one with its order unset, or a number not ahead, changes no order; an undefined
code is refused and counted; any other is adopted, and a RUN that finds the order unset requests a RESTART halt instead
of running. A STATUS that changes no order goes to the Halt Unit and, in MUSTER, to the census (R112, R130), and changes
the drive state by that evaluation alone. The order Order Unit, Halt Unit, census is the model's reading (log 11). What
a seize leaves of an ANSWER cut and of idle receivers is the model's (logs 28 and 30). -/
def Obligations.PanelStatusCatchesUp : Prop :=
  ∀ (s : State) (h : Header) (b : StatusBody), s.DriveInv → s.TimerInv → s.Accepts h .status → h.source = 0 →
    let u := s.afterHearing h (fun r => { r with reported := some (reportedOf h b) })
    let action := b.actionDirection >>> 4
    let direction := b.actionDirection &&& 0x0F
    let carries : Prop := b.flags.getLsbD 0 = false ∧ u.numberAhead h.order = true
    ∃ t, exec (.statusFrame h b) s = .next t
      ∧ (¬carries → u.SameOrders t ∧ t = (u.refineOrigin h b).evaluateCensus
          ∧ (u.drive.state ≠ .muster → t.drive.state = u.drive.state)
          ∧ (u.drive.state = .muster →
              (∀ x, u.censusBlocker = some x → t.drive.state = .muster ∧ t.orders.counting = true
                ∧ t.orders.blocker = some x)
              ∧ (u.censusBlocker = none → t.drive.state = u.stateAfterMuster ∧ t.orders.counting = false
                ∧ t.orders.musterTimer = none)))
      ∧ (carries → ¬(action.toNat ≤ 2 ∧ direction.toNat ≤ 1) →
          t.orders.unset = u.orders.unset ∧ t.orders.number = u.orders.number ∧ t.orders.action = u.orders.action
          ∧ t.orders.refused = (if u.orders.refused = 255 then 255 else u.orders.refused + 1))
      ∧ (carries → action.toNat ≤ 2 → direction.toNat ≤ 1 →
          t.orders.unset = false ∧ t.orders.number = h.order ∧ t.orders.action.code = action
          ∧ t.orders.direction.code = direction ∧ t.orders.pace = min b.pace.toNat 100
          ∧ t.orders.refused = u.orders.refused)
      ∧ (carries → action = 1 → direction.toNat ≤ 1 → u.orders.unset = true → u.drive.state = .idle →
          State.HaltsWith { u with orders := { u.orders with unset := false, number := h.order } } t .restart
            (some s.own) .idle)
      ∧ (carries → action = 1 → direction.toNat ≤ 1 → u.orders.unset = true → u.drive.state = .halted →
          t.drive = u.drive ∧ (t.halt.record.cause = some .restart ∨ t.halt.record.later.restart = true))
      ∧ (carries → action ≠ 1 ∨ u.orders.unset = false →
          t = ((u.takeOrder h.order action direction b.pace).refineOrigin h b).evaluateCensus)
      ∧ u.SameOuter t ∧ u.SameTallies t ∧ u.SameLines t

/-- The census (R128, R130): complete when no condition fails; else the blocker is the first failing one, in the order
loop, own readiness, positions 0 to N without the own. One evaluation while it counts (R131):
blocked, the blocker alone; complete, the timer stopped, the census INACTIVE, the pacer's period restarted, and the
state settled at tiers 7 to 9. -/
def Obligations.CensusAndItsEvaluation : Prop :=
  (∀ s : State,
    let onOrder (p : Position) : Prop := (s.roster.recordOf p).presence = .current ∧ ∃ x number,
      (s.roster.recordOf p).reported = some x ∧ s.orderInForce = some number ∧ x.order = some number
      ∧ (p ≠ 0 → x.ready = true ∧ 3 ≤ x.state.toNat ∧ x.state.toNat ≤ 7)
    let counted (p : Position) : Prop := p.toNat ≤ s.towers ∧ p ≠ s.own
    (s.censusBlocker = some .loop ↔ s.halt.settledSense = false)
    ∧ (s.censusBlocker = some .ownReadiness ↔ s.halt.settledSense = true
        ∧ s.own.toNat ≠ s.towers ∧ s.governor.lead = none)
    ∧ (∀ p, s.censusBlocker = some (.position p) → counted p ∧ ¬onOrder p
        ∧ ∀ q : Position, q.toNat < p.toNat → counted q → onOrder q)
    ∧ (s.censusBlocker = none ↔ s.halt.settledSense = true ∧ (s.own.toNat = s.towers ∨ s.governor.lead ≠ none)
        ∧ ∀ p, counted p → onOrder p))
  ∧ ∀ s : State, s.DriveInv →
    (s.orders.counting = false → s.evaluateCensus = s)
    ∧ (∀ b, s.orders.counting = true → s.censusBlocker = some b →
        s.evaluateCensus = { s with orders := { s.orders with blocker := some b } })
    ∧ (s.drive.state = .muster → s.censusBlocker = none →
        let t := s.evaluateCensus
        t.drive.state = s.stateAfterMuster ∧ t.orders.musterTimer = none ∧ t.orders.counting = false
        ∧ t.orders.blocker = none ∧ t.line.statusSlot = true
        ∧ (s.isPacer = true → t.pace.position = 0 ∧ t.pace.pendingPace = none
            ∧ t.pace.pace = s.pace.pendingPace.getD s.pace.pace
            ∧ t.pace.onLength = 10 * s.config.pacePeriod.toNat * t.pace.pace / 100
            ∧ t.pace.request = decide (0 < t.pace.onLength))
        ∧ s.SameOuter t ∧ s.SameOrders t ∧ s.SameBend t ∧ s.SameTallies t ∧ s.SameLines t)

/-- A muster timer that has run out expires in MUSTER (R127): a MUSTER_TIMEOUT halt with the own position as origin.
What a seize leaves of an ANSWER cut and of idle receivers is the model's (logs 28 and 30). -/
def Obligations.MusterTimeoutHalts : Prop :=
  ∀ s : State, s.DriveInv → s.drive.state = .muster → s.orders.musterTimer = some 0 →
    ∃ t, exec .musterTimerExpiry s = .next t ∧ s.HaltsWith t .musterTimeout (some s.own) .muster
      ∧ t.orders.musterTimer = none ∧ t.orders.counting = false ∧ t.orders.blocker = none
      ∧ s.SameOuter t ∧ s.SameOrders t ∧ s.SameBend t ∧ s.SameTallies t ∧ s.SameLines t

/-! ### Holds and claims -/

/-- A HOLD and a FREE at the Hold Table (R74 to R78). One that does not carry the order in force, or whose source is not
inboard, changes nothing. Underway, a HOLD that covers the station writes its source's record and holds a station in
WAIT or RUN; one that does not cover it, and a FREE, remove the record, and the last removal lets a HELD station go on;
a FREE that finds none is counted. (A lead of magnitude X or more in a following state, `misaligned`, would have halted
it.) In IDLE and HALTED a HOLD that would cover is counted and nothing else happens. A
HOLD that still carries the number before a STOP is of the first kind (the model's choice, log 32). -/
def Obligations.HoldAndFreeFrames : Prop :=
  ∀ (s : State) (h : Header) (reasons reach : Byte), s.DriveInv → let u := s.afterHearing h id
    let matched : Prop := 1 ≤ h.source.toNat ∧ h.source.toNat < u.own.toNat ∧ u.orderInForce = some h.order
    let covering : Prop := (reasons.getLsbD 0 = true ∨ reasons.getLsbD 1 = true ∨ reasons.getLsbD 2 = true)
      ∧ h.source.toNat < u.own.toNat ∧ u.own.toNat ≤ h.source.toNat + reach.toNat
    let underway : Prop := u.drive.state.isUnderway = true
    let removes (t : State) : Prop :=
      t.holds.recordOf h.source = none ∧ t.holds.unappliedHold = u.holds.unappliedHold
      ∧ (u.misaligned = false → (∀ p, p ≠ h.source → t.holds.recordOf p = u.holds.recordOf p)
        ∧ t.drive.state = if u.drive.state = .held ∧ ∀ p, p ≠ h.source → u.holds.recordOf p = none then
            (if u.runRequest = true ∧ u.drive.rest = .rested then .run else .wait) else u.drive.state)
    (s.Accepts h .hold → ∃ t, exec (.holdFrame h reasons reach) s = .next t
      ∧ (¬matched → t = u)
      ∧ (matched → underway → covering → u.misaligned = false →
          t.holds.recordOf h.source = some { reasons := ReasonSet.ofByte reasons, reach := reach, order := h.order
                                             placed := u.localTime }
          ∧ (∀ p, p ≠ h.source → t.holds.recordOf p = u.holds.recordOf p)
          ∧ t.drive.state = if u.drive.state = .wait ∨ u.drive.state = .run then .held else u.drive.state)
      ∧ (matched → underway → ¬covering → removes t ∧ t.holds.unmatchedFree = u.holds.unmatchedFree)
      ∧ (matched → ¬underway → covering → t = { u with holds := { u.holds with
          unappliedHold := if u.holds.unappliedHold = 255 then 255 else u.holds.unappliedHold + 1 } })
      ∧ (matched → ¬underway → ¬covering → t = u)
      ∧ u.SameOuter t ∧ u.SameOrders t ∧ u.SameBend t ∧ u.SameTallies t ∧ u.SameLines t)
    ∧ (s.Accepts h .free → ∃ t, exec (.freeFrame h) s = .next t
      ∧ (¬(matched ∧ underway) → t = u)
      ∧ (matched → underway → u.holds.recordOf h.source = none → t = { u with holds := { u.holds with
          unmatchedFree := if u.holds.unmatchedFree = 255 then 255 else u.holds.unmatchedFree + 1 } })
      ∧ (matched → underway → u.holds.recordOf h.source ≠ none →
          removes t ∧ t.holds.unmatchedFree = u.holds.unmatchedFree)
      ∧ u.SameOuter t ∧ u.SameOrders t ∧ u.SameBend t ∧ u.SameTallies t ∧ u.SameLines t)

/-- A tower's STATUS (R10, R19, R74, R77, R112, R130, R143). Its claim fields make the source's record agree with them,
when it carries the order in force from inboard and the station is underway: a record written holds a station in WAIT or
RUN, the last removal lets a HELD station go on. In MUSTER the census is evaluated, and one that completes with a lead
of magnitude X or more halts the station, its hold set emptied. (Such a lead in a following state, `misaligned`, would
have halted it before.) A STATUS of a HALTED station that names itself as origin sets the origin and the remote cause of
a LOOP_OPEN or SEIZED record that has none. -/
def Obligations.TowerStatusRestatesClaimAndOrigin : Prop :=
  ∀ (s : State) (h : Header) (b : StatusBody), s.DriveInv → s.TimerInv → s.Accepts h .status → h.source ≠ 0 →
    let u := s.afterHearing h (fun r => { r with reported := some (reportedOf h b) })
    let applicable : Prop := h.source.toNat < u.own.toNat ∧ b.flags.getLsbD 0 = false
      ∧ u.orderInForce = some h.order ∧ u.drive.state.isUnderway = true
    let covering : Prop := (b.reasons.getLsbD 0 = true ∨ b.reasons.getLsbD 1 = true ∨ b.reasons.getLsbD 2 = true)
      ∧ u.own.toNat ≤ h.source.toNat + b.reach.toNat
    let refines : Prop := u.halt.latched = true
      ∧ (u.halt.record.cause = some .loopOpen ∨ u.halt.record.cause = some .seized) ∧ u.halt.record.origin = none
      ∧ b.state = 8 ∧ b.origin = h.source.setWidth 8 ∧ b.cause.toNat ≤ 10
    let completesIntoHalt : Prop := u.drive.state = .muster ∧ u.censusBlocker = none ∧ u.leadBeyondHalt = true
    ∃ t, exec (.statusFrame h b) s = .next t
      ∧ (completesIntoHalt → ∀ p, t.holds.recordOf p = none)
      ∧ (applicable → covering → u.misaligned = false → ¬completesIntoHalt → t.holds.recordOf h.source = some
          { reasons := ReasonSet.ofByte b.reasons, reach := b.reach, order := h.order, placed := u.localTime })
      ∧ (applicable → ¬covering → t.holds.recordOf h.source = none)
      ∧ (¬applicable → ¬completesIntoHalt → t.holds = u.holds)
      ∧ (u.misaligned = false → ¬completesIntoHalt → ∀ p, p ≠ h.source → t.holds.recordOf p = u.holds.recordOf p)
      ∧ (u.misaligned = false → u.drive.state ≠ .muster → t.drive.state =
          if applicable ∧ covering ∧ (u.drive.state = .wait ∨ u.drive.state = .run) then .held
          else if applicable ∧ ¬covering ∧ u.drive.state = .held ∧ (∀ p, p ≠ h.source → u.holds.recordOf p = none) then
            (if u.runRequest = true ∧ u.drive.rest = .rested then .run else .wait)
          else u.drive.state)
      ∧ (u.drive.state = .muster →
          (∀ x, u.censusBlocker = some x → t.drive.state = .muster ∧ t.orders.counting = true
            ∧ t.orders.blocker = some x)
          ∧ (u.censusBlocker = none → t.drive.state = State.stateAfterMuster { u with holds := t.holds }
            ∧ t.orders.counting = false ∧ t.orders.musterTimer = none))
      ∧ (refines → t.halt = { u.halt with record := { u.halt.record with
          origin := some h.source
          remoteCause := [none, some .misalign, some .stall, some .creep, some .sensor, some .peerLost,
            some .panelLost, some .musterTimeout, some .loopOpen, some .seized, some .restart].getD b.cause.toNat none } })
      ∧ (u.drive.state = .halted → ¬refines → t.halt = u.halt)
      ∧ t.holds.unappliedHold = u.holds.unappliedHold ∧ t.holds.unmatchedFree = u.holds.unmatchedFree
      ∧ u.SameOuter t ∧ u.SameOrders t ∧ u.SameBend t ∧ u.SameTallies t ∧ u.SameLines t

/-- A report of a claim reason (R83 to R85, Table 5-3): no change does nothing; a change requests a STATUS, gives the
claim the largest reach of its reasons, and settles the claim slot: a HOLD for a claim, a FREE when an announced claim
or one whose HOLD is on the line has become empty, and nothing when it was never sent. That the slot's clash count stays
is the model's reading (log 12). -/
def Obligations.ClaimSlotFollowsClaim : Prop :=
  ∀ (s : State) (reason : ClaimReason) (present : Bool),
    let reasons := s.claim.reasons.put reason present
    let empty : Prop := reasons.lag = false ∧ reasons.stall = false ∧ reasons.sensor = false
    let onLine : Prop := ∃ f, s.line.transmitter = .sending f ∧ f.kind = .claim .hold
    (reasons = s.claim.reasons → s.reportReason reason present = s)
    ∧ (reasons ≠ s.claim.reasons → ∃ slot, s.reportReason reason present =
        { s with claim := { s.claim with
                   reasons := reasons
                   reach := max (if reasons.lag = true then 1 else 0)
                     (if reasons.stall = true ∨ reasons.sensor = true then s.towers - s.own.toNat else 0) }
                 line := { s.line with claimSlot := slot, statusSlot := true } }
        ∧ (¬empty → slot = some .hold)
        ∧ (empty → s.claim.announced = true ∨ onLine → slot = some .free)
        ∧ (empty → s.claim.announced = false → ¬onLine → slot = none))

/-! ### Halts and the loop -/

/-- A cause at the Halt Unit (Table 9-2, R139 to R141, R156): in the states where it latches, the whole entry to HALTED
as `HaltsWith` lists it; in HALTED a later cause where the table allows one and it is not the record's own; elsewhere
nothing. An ANSWER cut by the seize returns also when its discard time has run out, and a receiver with nothing in
collection stays as it is (the model's readings, logs 28 and 30). -/
def Obligations.HaltCausesAct : Prop :=
  ∀ (s : State) (cause : HaltCause) (origin : Option Position),
    let latches : Prop := match cause with
      | .misalign => s.isFollowing = true
      | .sensor => s.isFollowing = true
      | .stall => s.drive.state = .run
      | .creep => s.drive.state = .idle ∨ s.drive.state.isUnderway = true
      | .peerLost => s.drive.state.isUnderway = true
      | .panelLost => s.drive.state.isUnderway = true
      | .loopOpen => s.drive.state.isUnderway = true
      | .seized => s.drive.state.isUnderway = true
      | .musterTimeout => s.drive.state = .muster
      | .restart => s.drive.state = .idle
    let later := s.halt.record.later
    let added := match cause with
      | .creep => { later with creep := true }
      | .peerLost => { later with peerLost := true }
      | .panelLost => { later with panelLost := true }
      | .loopOpen => if s.halt.record.cause = some .seized then { later with loopOpen := true } else later
      | .seized => { later with seized := true }
      | .restart => { later with restart := true }
      | _ => later
    (latches → s.drive.runOutput = decide (s.drive.state = .run) →
      s.HaltsWith (s.raiseHalt cause origin) cause origin s.drive.state)
    ∧ (s.drive.state = .halted →
        let record := if s.halt.record.cause = some cause then s.halt.record else { s.halt.record with later := added }
        s.raiseHalt cause origin = { s with halt := { s.halt with record := record } })
    ∧ (s.drive.state ≠ .halted → ¬latches → s.raiseHalt cause origin = s)

/-- The loop sense settles, when the raw level has differed from it for 0.2 s (R136, R137, R141): outside a reset the
settled sense takes the raw level; past the
checks and outside OFFLINE the census hears of it, and a change to ABSENT halts an underway station on LOOP_OPEN
without a seize, and joins the later causes of a station halted on SEIZED alone. -/
def Obligations.LoopSenseSettles : Prop :=
  ∀ s : State, s.DriveInv → s.halt.rawSense ≠ s.halt.settledSense → s.halt.differsFor = 2 →
    let u : State := { s with halt := { s.halt with settledSense := s.halt.rawSense, differsFor := 0 } }
    (s.inReset = true → exec .loopSenseSettled s = .next s)
    ∧ (s.inReset = false → s.active = false → exec .loopSenseSettled s = .next u)
    ∧ (s.inReset = false → s.active = true → s.halt.settledSense = false →
        exec .loopSenseSettled s = .next u.evaluateCensus)
    ∧ (s.inReset = false → s.active = true → s.halt.settledSense = true → ∃ t, exec .loopSenseSettled s = .next t
        ∧ (s.drive.state.isUnderway = true → u.HaltsWith t .loopOpen none s.drive.state)
        ∧ (s.drive.state = .idle → t = { u with orders := t.orders })
        ∧ (s.drive.state = .halted → t = { u with
            orders := t.orders
            halt := if s.halt.record.cause = some .seized then { u.halt with record := { u.halt.record with
              later := { u.halt.record.later with loopOpen := true } } } else u.halt })
        ∧ t.halt.settledSense = false ∧ s.SameOrders t ∧ s.SameOuter t)

/-! ### The span line -/

/-- A character at a receiver that collects (R148, R149): a glitch, and anything at a DISCARDING receiver, takes none;
else disagreeing votes are counted once, a dominant stop bit and a 25th character discard the frame with their counts,
and any other character joins it. Where nothing collects, nothing happens. What the votes of a glitch and of the start
and stop bits count, and the yield bias kept at a discarded frame, are the model's readings (logs 17 and 19), and so is
the mark of the station's own readback (log 7). Idle times and dominant runs are shown as the least known (the model's
form, log 4). -/
def Obligations.CharacterIsTaken : Prop :=
  ∀ (s : State) (line : Line) (c : CharacterSamples),
    let y := s.line.lineState line
    let bit (k : Nat) : Bool := (c.seventh.getLsbD k && c.eighth.getLsbD k) || (c.eighth.getLsbD k && c.ninth.getLsbD k)
      || (c.seventh.getLsbD k && c.ninth.getLsbD k)
    let noted : LineCounters := if c.seventh = c.eighth ∧ c.eighth = c.ninth then y.counters
      else { y.counters with noisy := if y.counters.noisy = 65535 then 65535 else y.counters.noisy + 1 }
    let takes : Prop := bit 0 = false ∧ y.receiver ≠ .discarding
    (s.collecting = false → exec (.characterReceived line c) s = .next s)
    ∧ (s.collecting = true → ∃ z : LineState, exec (.characterReceived line c) s = .next
          { s with line := s.line.setLineState line z }
        ∧ (¬takes → z = { y with idleTime := 0 })
        ∧ (takes → bit 9 = false → z = { y with
            receiver := .discarding, characters := [], ownFrame := false, idleTime := 0
            counters := { noted with framing := if noted.framing = 65535 then 65535 else noted.framing + 1 } })
        ∧ (takes → bit 9 = true → y.characters.length = 24 → z = { y with
            receiver := .discarding, characters := [], ownFrame := false, idleTime := 0
            counters := { noted with format := if noted.format = 65535 then 65535 else noted.format + 1 } })
        ∧ (takes → bit 9 = true → y.characters.length ≠ 24 → ∃ value : Byte, (∀ k : Fin 8, value.getLsbD k = bit (k + 1))
            ∧ z = { y with receiver := .collecting, characters := y.characters ++ [value]
                           ownFrame := y.ownFrame || s.line.readsBack line, idleTime := 0, dominantRun := 0
                           counters := noted }))

/-- The end of a collection (R149, R150, Tables 10-2, 11-1 and 11-2). The checks are made in their order on the
characters, one or two characters failing at the lead character or the length. A frame that fails is discarded with the
count of its first failing check; the station's own is discarded uncounted. A line idle for 2 Tc makes the receiver IDLE
and arms the seize detection; a frame of another station in collection is judged then, and a good one is taken as the
command of its kind takes it. What each command does where the table gives the event to another row is the model's
choice (logs 20 and 27), and so is the mark of the own readback (log 7). Idle times and dominant runs are shown as the
least known (the model's form, log 4). -/
def Obligations.FrameChecksDecide : Prop :=
  (∀ lead second : Byte, let short := some (if lead = 0xB4 then FrameFailure.format else FrameFailure.framing)
    checkFrame [lead] = short ∧ checkFrame [lead, second] = short)
  ∧ (∀ (lead : Byte) (inner : List Byte) (high low : Byte), checkFrame (lead :: inner ++ [high, low]) =
    if lead ≠ 0xB4 then some .framing
    else if inner.length < 3 then some .format
    else if crcOf inner ≠ high ++ low then some .crcBad
    else match [12, 3, 2, 0, 3, 10][(inner.getD 0 0).toNat / 32]? with
      | none => some .format
      | some body => if inner.length = body + 3 then none else some .format)
  ∧ ∀ (s : State) (line : Line), s.collecting = true → let y := s.line.lineState line
    let ended : LineState := { y with receiver := .idle, characters := [], ownFrame := false
                                      idleTime := max y.idleTime 2, armed := true, dominantRun := 0 }
    let byte (i : Nat) : Byte := y.characters.getD i 0
    let h : Header := { line := line, source := (byte 1).extractLsb' 0 5, seq := byte 2, order := byte 3 }
    let kind := (byte 1).extractLsb' 5 3
    let body : StatusBody :=
      { state := byte 4, flags := byte 5, lead := byte 6 ++ byte 7, strides := byte 8 ++ byte 9, reasons := byte 10
        reach := byte 11, cause := byte 12, origin := byte 13, actionDirection := byte 14, pace := byte 15 }
    let taken (i : Instr) : Prop := exec (.receiverIdle line) s = exec i s
    (y.receiver ≠ .collecting ∨ y.ownFrame = true →
      exec (.receiverIdle line) s = .next { s with line := s.line.setLineState line ended })
    ∧ (∀ f, y.receiver = .collecting → y.ownFrame = false → checkFrame y.characters = some f →
        taken (.frameCheckFailed line))
    ∧ (y.receiver = .collecting → y.ownFrame = false → checkFrame y.characters = none →
        (kind = 0 → taken (.statusFrame h body))
        ∧ (kind = 1 → (byte 4 = 0 → taken (.stopOrder h (byte 5) (byte 6)))
            ∧ (byte 4 = 1 → taken (.runOrder h (byte 5) (byte 6))) ∧ (byte 4 = 2 → taken (.clearOrder h (byte 5) (byte 6)))
            ∧ taken (.orderUndefinedAction h (byte 4) (byte 5) (byte 6)))
        ∧ (kind = 2 → taken (.holdFrame h (byte 4) (byte 5)))
        ∧ (kind = 3 → taken (.freeFrame h))
        ∧ (kind = 4 → ∀ i, askOf i = some (h, byte 4, byte 5, byte 6) → taken i)
        ∧ (kind = 5 → ∀ data, taken (.answerFrame h (byte 4) (byte 5) data)))
    ∧ (y.receiver ≠ .collecting → exec (.frameCheckFailed line) s = .next s)
    ∧ (y.receiver = .collecting → y.ownFrame = true →
        exec (.frameCheckFailed line) s = .next { s with line := s.line.setLineState line ended })
    ∧ (y.receiver = .collecting → y.ownFrame = false → checkFrame y.characters = none →
        exec (.frameCheckFailed line) s = .next s)
    ∧ (∀ f, y.receiver = .collecting → y.ownFrame = false → checkFrame y.characters = some f →
        exec (.frameCheckFailed line) s = .next { s with line := { s.line.setLineState line { ended with
          counters := match f with
            | .framing => { y.counters with framing := satInc y.counters.framing }
            | .format => { y.counters with format := satInc y.counters.format }
            | .crcBad => { y.counters with crcBad := satInc y.counters.crcBad } } with
          yieldBias := if line = s.line.sendLine then false else s.line.yieldBias } })

/-- A quiet timer expires (R151, R155, R162, R172): one that has run out makes its line QUIET; the send line gone QUIET
while the other is ALIVE, with the alternate line enabled and the checks passed, changes the send line, after a
transmission in progress. That it stays before the checks have passed is the model's choice (log 33). -/
def Obligations.QuietTimerExpires : Prop :=
  ∀ (s : State) (line : Line), (s.line.lineState line).quietTimer = some 0 →
    let x := s.line.setLineState line { s.line.lineState line with alive := false, quietTimer := none }
    let changes : Prop := line = s.line.sendLine ∧ (s.line.lineState (otherLine line)).alive = true
      ∧ s.loader.state = .passed ∧ s.config.alternateLine = 1
    (¬changes → exec (.quietTimerExpiry line) s = .next { s with line := x })
    ∧ (changes → (∃ f, s.line.transmitter = .sending f) →
        exec (.quietTimerExpiry line) s = .next { s with line := { x with changeWaiting := true } })
    ∧ (changes → (¬∃ f, s.line.transmitter = .sending f) →
        exec (.quietTimerExpiry line) s = .next { s with line := { x with
          sendLine := otherLine line, yieldBias := false, claimClashes := 0, answerClashes := 0, statusClashes := 0
          changeWaiting := false } })

/-- A seize detected (R137, R149, R157): on an ARMED line outside a seize of the station's own it is counted, detection
is SPENT, and a frame in collection is dropped; an underway station halts on SEIZED without a seize. What the receiver
becomes, and the yield bias kept at a frame dropped, are the model's readings (logs 17 and 28), and the mark of the own
readback (log 7) and the length of the run as the least known (log 4) are its form. -/
def Obligations.SeizeIsDetected : Prop :=
  ∀ (s : State) (line : Line), s.DriveInv →
    let y := s.line.lineState line
    let z : LineState := { y with
      receiver := if y.receiver = .collecting then .discarding else y.receiver
      characters := if y.receiver = .collecting then [] else y.characters
      ownFrame := if y.receiver = .collecting then false else y.ownFrame
      armed := false, dominantRun := 20, idleTime := 0
      counters := { y.counters with seizes := if y.counters.seizes = 65535 then 65535 else y.counters.seizes + 1 } }
    let u : State := { s with line := s.line.setLineState line z }
    (s.collecting = false ∨ y.armed = false → exec (.seizeDetected line) s = .next s)
    ∧ (s.collecting = true → y.armed = true → ∃ t, exec (.seizeDetected line) s = .next t
        ∧ (s.active = false ∨ s.drive.state = .idle → t = u)
        ∧ (s.active = true → s.drive.state.isUnderway = true → u.HaltsWith t .seized none s.drive.state)
        ∧ (s.active = true → s.drive.state = .halted →
            let record := if s.halt.record.cause = some .seized then s.halt.record
              else { s.halt.record with later := { s.halt.record.later with seized := true } }
            t = { u with halt := { s.halt with record := record } })
        ∧ u.SameLines t)

/-- A transmission starts (R152, R153, R158, R163): the frame at the head of the queue (claim, ANSWER, STATUS), once the
send line has been idle for its gap, measured from the clash for the first attempt after one (R154), is built under the
next sequence number and leaves its slot; else nothing happens. The two times are an operand (the model's choice, log
5). -/
def Obligations.TransmissionStarts : Prop :=
  ∀ (s : State) (times : GapTimes) (k : FrameKind),
    let time := if s.line.gapFromClash = true then min times.idle times.sinceClash else times.idle
    let head : Prop := match k with
      | .claim c => s.line.claimSlot = some c
      | .answer a => s.line.claimSlot = none ∧ s.line.answerSlot = some a
      | .status => s.line.claimSlot = none ∧ s.line.answerSlot = none ∧ s.line.statusSlot = true
    let gap := (match k with
      | .claim _ => 3
      | .answer _ => 3
      | .status => 36) + s.own.toNat + if s.line.yieldBias = true then 68 else 0
    let code : BitVec 3 := match k with
      | .status => 0
      | .claim .hold => 2
      | .claim .free => 3
      | .answer _ => 5
    let seq := (s.roster.recordOf s.own).lastSeq.getD 255 + 1
    let order := if s.orders.unset = true then 0 else s.orders.number
    let inner := (code ++ s.own : Byte) :: seq :: order :: s.bodyOf k
    (head → s.active = true → s.line.transmitter = .released → gap ≤ time →
      ∃ t, exec (.transmissionStart times) s = .next t
      ∧ t.line.transmitter = .sending { kind := k, seq := seq, order := order
                                        characters := 0xB4 :: inner ++ bytes16 (crcOf inner) }
      ∧ t = { s with line := t.line } ∧ t.line.gapFromClash = false
      ∧ t.line.claimSlot = (match k with
          | .claim _ => none
          | .answer _ => s.line.claimSlot
          | .status => s.line.claimSlot)
      ∧ t.line.answerSlot = (match k with
          | .claim _ => s.line.answerSlot
          | .answer _ => none
          | .status => s.line.answerSlot)
      ∧ t.line.statusSlot = (match k with
          | .claim _ => s.line.statusSlot
          | .answer _ => s.line.statusSlot
          | .status => false)
      ∧ s.SameLines t ∧ t.line.sendLine = s.line.sendLine ∧ t.line.yieldBias = s.line.yieldBias
      ∧ t.line.consecutiveClashes = s.line.consecutiveClashes ∧ t.line.reportTimer = s.line.reportTimer)
    ∧ (head → ¬(s.active = true ∧ s.line.transmitter = .released ∧ gap ≤ time) →
        exec (.transmissionStart times) s = .next s)
    ∧ (s.line.claimSlot = none → s.line.answerSlot = none → s.line.statusSlot = false →
        exec (.transmissionStart times) s = .next s)

/-- A transmission completes (R86, R104, R153, R155, R159): the slot's and the consecutive clash count are 0, the yield
bias set unless a waiting change of send line is made, the own record takes the sequence and counts the frame, a STATUS
starts the report timer, a HOLD under the order in force sets the announced mark and a FREE clears it. -/
def Obligations.TransmissionCompletes : Prop :=
  ∀ (s : State) (f : SentFrame), s.line.transmitter = .sending f →
    let slot : Fin 3 := match f.kind with
      | .claim _ => 0
      | .answer _ => 1
      | .status => 2
    ∃ t, exec .transmissionComplete s = .next t
    ∧ t.line.transmitter = .released ∧ t.line.consecutiveClashes = 0
    ∧ t.line.yieldBias = !s.line.changeWaiting ∧ t.line.changeWaiting = false
    ∧ t.line.sendLine = (if s.line.changeWaiting = true then otherLine s.line.sendLine else s.line.sendLine)
    ∧ t.line.claimClashes = (if s.line.changeWaiting = true ∨ slot = 0 then 0 else s.line.claimClashes)
    ∧ t.line.answerClashes
        = (if s.line.changeWaiting = true ∨ slot = 1 then 0 else s.line.answerClashes)
    ∧ t.line.statusClashes = (if s.line.changeWaiting = true ∨ slot = 2 then 0 else s.line.statusClashes)
    ∧ t.line.reportTimer = (if f.kind = .status then some (10 + 5 * s.config.reportCode.toNat) else s.line.reportTimer)
    ∧ t.line.claimSlot = s.line.claimSlot ∧ t.line.answerSlot = s.line.answerSlot
    ∧ t.line.statusSlot = s.line.statusSlot ∧ t.line.lineA = s.line.lineA ∧ t.line.lineB = s.line.lineB
    ∧ t.roster.recordOf s.own = { s.roster.recordOf s.own with
        lastSeq := some f.seq
        accepted := if (s.roster.recordOf s.own).accepted = 65535 then 65535 else (s.roster.recordOf s.own).accepted + 1 }
    ∧ (∀ p, p ≠ s.own → t.roster.recordOf p = s.roster.recordOf p)
    ∧ t.claim = { s.claim with announced := t.claim.announced }
    ∧ t.claim.announced =
        (if f.kind = .claim .hold ∧ s.orders.unset = false ∧ s.orders.number = f.order then true
        else if f.kind = .claim .free then false else s.claim.announced)
    ∧ t = { s with line := t.line, roster := { s.roster with records := t.roster.records }, claim := t.claim }

/-- A clash (R154, R155, R160): the station stops driving and the send line's, the slot's and the consecutive count
rise; the frame returns to its slot unless a newer one stands there, an ANSWER out of its discard time being counted
instead; at the slot's third clash the send line changes, or with the alternate line disabled the count returns to 0;
the eighth consecutive clash is a position conflict. The next access gap is measured from the clash. Three corners of
the slot count, the discard time and a waiting change are the model's (logs 12 to 14), and so are the return of a claim
frame whose claim has been emptied (log 31) and the counting of an ANSWER out of its discard time when a newer one
stands (log 36). -/
def Obligations.ClashCountsAndReturns : Prop :=
  ∀ (s : State) (f : SentFrame), s.DriveInv → s.line.transmitter = .sending f →
    let x := s.line
    let taken : Bool := match f.kind with
      | .claim _ => x.claimSlot.isSome
      | .answer _ => x.answerSlot.isSome
      | .status => x.statusSlot
    let clashesOf (y : SpanLine) : Nat := match f.kind with
      | .claim _ => y.claimClashes
      | .answer _ => y.answerClashes
      | .status => y.statusClashes
    let count := if taken = true then 0 else clashesOf x + 1
    let changes : Prop := x.changeWaiting = true ∨ 3 ≤ count ∧ s.config.alternateLine = 1
    let expired : Bool := match f.kind with
      | .claim _ => false
      | .answer a => decide (a.discard = 0)
      | .status => false
    ∃ t, exec .clash s = .next t
      ∧ t.line.transmitter = .released ∧ t.line.consecutiveClashes = x.consecutiveClashes + 1
      ∧ t.line.gapFromClash = true
      ∧ (t.line.lineState x.sendLine).counters = { (x.lineState x.sendLine).counters with
          clashes := satInc (x.lineState x.sendLine).counters.clashes }
      ∧ t.line.lineState (otherLine x.sendLine) = x.lineState (otherLine x.sendLine)
      ∧ t.line.sendLine = (if changes then otherLine x.sendLine else x.sendLine)
      ∧ (changes → t.line.yieldBias = false ∧ t.line.claimClashes = 0 ∧ t.line.answerClashes = 0
          ∧ t.line.statusClashes = 0)
      ∧ (¬changes → t.line.yieldBias = x.yieldBias ∧ clashesOf t.line = if 3 ≤ count then 0 else count)
      ∧ t.line.answersDiscarded = (if expired = true then satInc x.answersDiscarded else x.answersDiscarded)
      ∧ (x.consecutiveClashes + 1 < 8 →
          t.line.claimSlot = (match f.kind with
            | .claim c => some (x.claimSlot.getD c)
            | .answer _ => x.claimSlot
            | .status => x.claimSlot)
          ∧ t.line.answerSlot = (match f.kind with
            | .claim _ => x.answerSlot
            | .answer a => if a.discard = 0 then x.answerSlot else some (x.answerSlot.getD a)
            | .status => x.answerSlot)
          ∧ t.line.statusSlot = (match f.kind with
            | .claim _ => x.statusSlot
            | .answer _ => x.statusSlot
            | .status => true)
          ∧ t = { s with line := t.line })
      ∧ (8 ≤ x.consecutiveClashes + 1 → t.drive.state = .offline ∧ t.loader.offlineCause = some .positionConflict
          ∧ t.line.claimSlot = none ∧ t.line.answerSlot = none ∧ t.line.statusSlot = false
          ∧ t.line.reportTimer = none ∧ t.roster = s.roster)

/-- The end of a seize (R156), the report timer (R159) and the discard of an ANSWER (R160): the lines are released with
their idle time and their dominant run measured from now; a STATUS is requested and the timer, which has run out,
stops; a waiting ANSWER whose discard time has run out is removed and counted, and no other is. The slot's clash count
kept (log 12) is the model's reading; that SEIZE_END while a frame is sent changes nothing is its choice for events that
cannot occur (log 1), and idle times and dominant runs as the least known are its form (log 4). -/
def Obligations.InterfaceTimers : Prop :=
  ∀ s : State,
    (s.line.transmitter = .seizing → exec .seizeEnd s = .next { s with line := { s.line with
      transmitter := .released, lineA := { s.line.lineA with idleTime := 0, dominantRun := 0 }
      lineB := { s.line.lineB with idleTime := 0, dominantRun := 0 } } })
    ∧ (∀ f, s.line.transmitter = .sending f → exec .seizeEnd s = .next s)
    ∧ (s.line.reportTimer = some 0 → exec .reportTimerExpiry s = .next
      { s with line := { s.line with reportTimer := none, statusSlot := true } })
    ∧ (∀ a, s.line.answerSlot = some a → a.discard = 0 → exec .answerDiscard s = .next { s with line := { s.line with
      answerSlot := none
      answersDiscarded := if s.line.answersDiscarded = 255 then 255 else s.line.answersDiscarded + 1 } })
    ∧ ((∀ a, s.line.answerSlot = some a → a.discard ≠ 0) → exec .answerDiscard s = .next s)

/-! ### Questions and formats -/

/-- An accepted ASK of any item, known or not (R165, R167): addressed to this station it places an ANSWER with its item
and argument and a discard time of 2.0 s in the ANSWER slot; else it is ignored. That the slot's clash count stays when
a waiting ANSWER is replaced is the model's reading (log 12). -/
def Obligations.AsksQueueAnAnswer : Prop :=
  ∀ (s : State) (i : Instr) (h : Header) (target item argument : Byte), askOf i = some (h, target, item, argument) →
    s.Accepts h .ask → let u := s.afterHearing h id
    exec i s = .next (if target = u.own.setWidth 8 then { u with line := { u.line with
      answerSlot := some { item := item, argument := argument, discard := 20 } } } else u)

/-- What frames and answers carry (Tables 11-3, 11-4 and 11-6, R81, R116, R133, R167), byte by byte, from the state as
it stands when the frame is built. The own roster record's reported fields are computed (the model's choice, log 16). -/
def Obligations.BodiesAsTheTables : Prop :=
  ∀ s : State, let hi := highByte
    let lo := lowByte
    let r := s.halt.record
    let bit (n : Nat) (b : Bool) : Byte := if b = true then BitVec.ofNat 8 (2 ^ n) else 0
    let lead := BitVec.ofInt 16 (s.governor.lead.getD 0)
    let number := if s.orders.unset = true then 0 else s.orders.number
    let state (d : DriveState) : Byte := match d with
      | .offline => 0
      | .idle => 1
      | .dwell => 2
      | .muster => 3
      | .wait => 4
      | .run => 5
      | .held => 6
      | .stalled => 7
      | .halted => 8
    let cause (c : Option HaltCause) : Byte := match c with
      | none => 0
      | some .misalign => 1
      | some .stall => 2
      | some .creep => 3
      | some .sensor => 4
      | some .peerLost => 5
      | some .panelLost => 6
      | some .musterTimeout => 7
      | some .loopOpen => 8
      | some .seized => 9
      | some .restart => 10
    let origin (p : Option Position) : Byte := match p with
      | none => 0xFF
      | some x => BitVec.ofNat 8 x.toNat
    let action : Byte := match s.orders.action with
      | .stop => 0
      | .run => 1
      | .clear => 2
    let direction : Byte := match s.orders.direction with
      | .forward => 0
      | .reverse => 1
    let presence (x : Presence) : Byte := match x with
      | .absent => 0
      | .current => 1
      | .stale => 2
      | .lost => 3
    let count (x : Presence) : Byte := BitVec.ofNat 8 (((List.range 32).filter (fun n => decide (n ≤ s.towers
      ∧ n ≠ s.own.toNat ∧ (s.roster.recordOf (BitVec.ofNat 5 n)).presence = x))).length)
    let reasons (x : ReasonSet) : Byte := bit 0 x.lag ||| bit 1 x.stall ||| bit 2 x.sensor
    s.bodyOf .status =
      [state s.drive.state,
       bit 0 s.orders.unset ||| bit 1 s.halt.settledSense ||| bit 2 s.governor.lead.isSome
         ||| bit 3 (s.isPacer || s.governor.lead.isSome) ||| bit 4 s.isPacer,
       hi lead, lo lead, hi s.stride.strideCount, lo s.stride.strideCount,
       reasons s.claim.reasons, BitVec.ofNat 8 s.claim.reach, if s.halt.latched = true then cause r.cause else 0,
       if s.halt.latched = true then origin r.origin else 0xFF, action <<< 4 ||| direction, BitVec.ofNat 8 s.orders.pace]
    ∧ s.bodyOf (.claim .hold) = [reasons s.claim.reasons, BitVec.ofNat 8 s.claim.reach]
    ∧ s.bodyOf (.claim .free) = []
    ∧ (∀ a, s.bodyOf (.answer a) = a.item :: a.argument :: s.answerData a.item a.argument)
    ∧ (∀ a, s.answerData 1 a = [cause r.cause, origin r.origin, cause r.remoteCause,
        bit 0 r.later.creep ||| bit 1 r.later.peerLost ||| bit 2 r.later.panelLost ||| bit 3 r.later.loopOpen
          ||| bit 4 r.later.seized ||| bit 5 r.later.restart, r.order,
        r.timeTag.extractLsb' 16 8, r.timeTag.extractLsb' 8 8, r.timeTag.extractLsb' 0 8])
    ∧ (∀ p : Position, s.answerData 2 (p.setWidth 8) =
        let x := s.roster.recordOf p
        [presence x.presence, BitVec.ofNat 8 (min (x.age.toNat / 10) 255), x.lastSeq.getD 0, x.missed,
         if p = s.own then state s.drive.state else (match x.reported with
          | none => 0xFF
          | some y => y.state),
         if p = s.own then (if s.orders.unset = true then 0xFF else s.orders.number) else (match x.reported with
          | none => 0xFF
          | some y => y.order.getD 0xFF),
         hi x.accepted, lo x.accepted])
    ∧ s.answerData 2 32 = [hi s.roster.notAcceptedTotal, lo s.roster.notAcceptedTotal, hi s.roster.duplicateTotal,
        lo s.roster.duplicateTotal, hi s.roster.strangerTotal, lo s.roster.strangerTotal,
        count .current, count .lost]
    ∧ (∀ l : Line, let c := (s.line.lineState l).counters
        let code : Byte := if l = .a then 0 else 1
        s.answerData 3 code = [hi c.good, lo c.good, hi c.crcBad, lo c.crcBad, hi c.clashes, lo c.clashes,
          BitVec.ofNat 8 (min c.seizes.toNat 255),
          bit 0 (decide (s.line.sendLine = .b)) ||| bit 1 s.line.lineA.alive ||| bit 2 s.line.lineB.alive]
        ∧ s.answerData 9 code = [hi c.framing, lo c.framing, hi c.format, lo c.format, hi c.noisy, lo c.noisy,
          s.line.answersDiscarded, BitVec.ofNat 8 s.line.consecutiveClashes])
    ∧ (∀ a, s.answerData 4 a = [s.stride.runTime.extractLsb' 16 8, s.stride.runTime.extractLsb' 8 8,
        s.stride.runTime.extractLsb' 0 8, s.stride.stallEvents, hi s.stride.creepPulses, lo s.stride.creepPulses,
        hi s.sensor.failureTotal, lo s.sensor.failureTotal])
    ∧ (∀ a, s.answerData 5 a = [hi s.loader.crc, lo s.loader.crc, s.config.layoutVersion, s.config.towers,
        s.own.setWidth 8, s.config.levelTable, s.config.sensorMode, s.config.stallMode])
    ∧ (∀ p : Position, s.holds.recordOf p = none → s.answerData 6 (p.setWidth 8) =
        [0, 0, 0, 0, 0, 0, s.holds.unappliedHold, s.holds.unmatchedFree])
    ∧ (∀ (p : Position) x, s.holds.recordOf p = some x → s.answerData 6 (p.setWidth 8) =
        let age := BitVec.ofNat 16 (min (s.localTime - x.placed).toNat 65535)
        [1, reasons x.reasons, x.reach, x.order, hi age, lo age, s.holds.unappliedHold, s.holds.unmatchedFree])
    ∧ (∀ a, s.answerData 7 a = [if s.orders.unset = true then 1 else 0, number, action, direction, BitVec.ofNat 8 s.orders.pace,
        BitVec.ofNat 8 ((s.orders.musterTimer.getD 0 + 9) / 10),
        if s.orders.counting = true then (match s.orders.blocker with
          | none => 0xFF
          | some .loop => 0x41
          | some .ownReadiness => 0x40
          | some (.position p) => BitVec.ofNat 8 p.toNat) else 0xFF, s.orders.refused])
    ∧ (∀ a, s.answerData 8 a = [hi (BitVec.ofInt 16 r.lead), lo (BitVec.ofInt 16 r.lead), hi r.strides, lo r.strides,
        state r.priorState, r.timeTag.extractLsb' 24 8,
        bit 0 s.halt.latched ||| bit 1 s.halt.loopClosed ||| bit 2 s.halt.settledSense, 0])
    ∧ (∀ item a : Byte, item = 0 ∨ 9 < item.toNat ∨ item = 2 ∧ 32 < a.toNat ∨ item = 3 ∧ 1 < a.toNat
        ∨ item = 6 ∧ 31 < a.toNat ∨ item = 9 ∧ 1 < a.toNat → s.answerData item a = List.replicate 8 0xFF)

/-- The CRC of the nine bytes 0x31 to 0x39 (R150), and every frame the station builds passes the checks of Table 10-2 at
a receiver. -/
def Obligations.BuiltFramesPassTheChecks : Prop :=
  crcOf [0x31, 0x32, 0x33, 0x34, 0x35, 0x36, 0x37, 0x38, 0x39] = 0x29B1
  ∧ ∀ (s : State) (k : FrameKind), checkFrame (s.buildFrame k).characters = none
    ∧ (s.buildFrame k).characters.length ≤ 24

/-- The configuration record and its 32 bytes (Table 12-1, R169) agree both ways: no byte is dropped and no field
changed. -/
def Obligations.ConfigRecordAndBytesAgree : Prop :=
  (∀ (c : ConfigRecord) (crc : BitVec 16), ConfigRecord.ofBytes (c.toBytes ++ bytes16 crc) = c
    ∧ crcFieldOf (c.toBytes ++ bytes16 crc) = crc)
  ∧ ∀ image : List Byte, image.length = 32 →
    (ConfigRecord.ofBytes image).toBytes ++ bytes16 (crcFieldOf image) = image

/-! ### What every step keeps -/

/-- Every step keeps the standing facts of the run decision: the settled state, the contactor with RUN, the loop switch,
the stall timer, the time before the checks, and the silence of OFFLINE (R2, R7, R62, R118, R134, R135, R158). -/
def Obligations.EveryStepKeepsTheRunDecision : Prop :=
  ∀ s t : State, s.DriveInv → step s = .next t → t.DriveInv

/-- Every step keeps the standing facts of the governor, the roster, the hold set and the claim (R27, R72 to R74, R83,
R102 to R104), each beside those of the run decision; and a known lead lies in -1500 to +1500 (R27). -/
def Obligations.EveryStepKeepsTheBlocks : Prop :=
  (∀ s t : State, s.DriveInv → step s = .next t →
    (s.LeadInv → t.LeadInv) ∧ (s.RosterInv → t.RosterInv) ∧ (s.HoldInv → t.HoldInv) ∧ (s.ClaimInv → t.ClaimInv))
  ∧ ∀ (s : State) (lead : Int), s.LeadInv → s.governor.lead = some lead → -1500 ≤ lead ∧ lead ≤ 1500

/-- Every step keeps the timers to their drive states, the Pace Timer to the pacer in WAIT and RUN, and the Sensor
Port's lines and timers to its exchange state (R6, R22, R41, R43 to R45, R61, R65, R92, R96, R127). The clock is shown
as low or running (the model's choice, log 18). -/
def Obligations.EveryStepKeepsTheTimers : Prop :=
  ∀ s t : State, s.DriveInv → s.TimerInv → s.PortInv → step s = .next t → t.TimerInv ∧ t.PortInv
end

