-- ==== Sys2Proof/Laws/State.lean ====
section
/-! SUPPORT. One lemma for each block of State under each block update: what `State.set...` leaves and what it writes. -/
namespace Sys2Proof.Machine

@[simp] theorem State.setResets_resets (s : State) x : (s.setResets x).resets = x := rfl
@[simp] theorem State.setResets_drive (s : State) x : (s.setResets x).drive = s.drive := rfl
@[simp] theorem State.setResets_governor (s : State) x : (s.setResets x).governor = s.governor := rfl
@[simp] theorem State.setResets_sensor (s : State) x : (s.setResets x).sensor = s.sensor := rfl
@[simp] theorem State.setResets_stride (s : State) x : (s.setResets x).stride = s.stride := rfl
@[simp] theorem State.setResets_holds (s : State) x : (s.setResets x).holds = s.holds := rfl
@[simp] theorem State.setResets_claim (s : State) x : (s.setResets x).claim = s.claim := rfl
@[simp] theorem State.setResets_pace (s : State) x : (s.setResets x).pace = s.pace := rfl
@[simp] theorem State.setResets_roster (s : State) x : (s.setResets x).roster = s.roster := rfl
@[simp] theorem State.setResets_orders (s : State) x : (s.setResets x).orders = s.orders := rfl
@[simp] theorem State.setResets_halt (s : State) x : (s.setResets x).halt = s.halt := rfl
@[simp] theorem State.setResets_line (s : State) x : (s.setResets x).line = s.line := rfl
@[simp] theorem State.setResets_loader (s : State) x : (s.setResets x).loader = s.loader := rfl
@[simp] theorem State.setResets_localTime (s : State) x : (s.setResets x).localTime = s.localTime := rfl
@[simp] theorem State.setResets_choices (s : State) x : (s.setResets x).choices = s.choices := rfl
@[simp] theorem State.setResets_pending (s : State) x : (s.setResets x).pending = s.pending := rfl

@[simp] theorem State.setDrive_resets (s : State) x : (s.setDrive x).resets = s.resets := rfl
@[simp] theorem State.setDrive_drive (s : State) x : (s.setDrive x).drive = x := rfl
@[simp] theorem State.setDrive_governor (s : State) x : (s.setDrive x).governor = s.governor := rfl
@[simp] theorem State.setDrive_sensor (s : State) x : (s.setDrive x).sensor = s.sensor := rfl
@[simp] theorem State.setDrive_stride (s : State) x : (s.setDrive x).stride = s.stride := rfl
@[simp] theorem State.setDrive_holds (s : State) x : (s.setDrive x).holds = s.holds := rfl
@[simp] theorem State.setDrive_claim (s : State) x : (s.setDrive x).claim = s.claim := rfl
@[simp] theorem State.setDrive_pace (s : State) x : (s.setDrive x).pace = s.pace := rfl
@[simp] theorem State.setDrive_roster (s : State) x : (s.setDrive x).roster = s.roster := rfl
@[simp] theorem State.setDrive_orders (s : State) x : (s.setDrive x).orders = s.orders := rfl
@[simp] theorem State.setDrive_halt (s : State) x : (s.setDrive x).halt = s.halt := rfl
@[simp] theorem State.setDrive_line (s : State) x : (s.setDrive x).line = s.line := rfl
@[simp] theorem State.setDrive_loader (s : State) x : (s.setDrive x).loader = s.loader := rfl
@[simp] theorem State.setDrive_localTime (s : State) x : (s.setDrive x).localTime = s.localTime := rfl
@[simp] theorem State.setDrive_choices (s : State) x : (s.setDrive x).choices = s.choices := rfl
@[simp] theorem State.setDrive_pending (s : State) x : (s.setDrive x).pending = s.pending := rfl

@[simp] theorem State.setGovernor_resets (s : State) x : (s.setGovernor x).resets = s.resets := rfl
@[simp] theorem State.setGovernor_drive (s : State) x : (s.setGovernor x).drive = s.drive := rfl
@[simp] theorem State.setGovernor_governor (s : State) x : (s.setGovernor x).governor = x := rfl
@[simp] theorem State.setGovernor_sensor (s : State) x : (s.setGovernor x).sensor = s.sensor := rfl
@[simp] theorem State.setGovernor_stride (s : State) x : (s.setGovernor x).stride = s.stride := rfl
@[simp] theorem State.setGovernor_holds (s : State) x : (s.setGovernor x).holds = s.holds := rfl
@[simp] theorem State.setGovernor_claim (s : State) x : (s.setGovernor x).claim = s.claim := rfl
@[simp] theorem State.setGovernor_pace (s : State) x : (s.setGovernor x).pace = s.pace := rfl
@[simp] theorem State.setGovernor_roster (s : State) x : (s.setGovernor x).roster = s.roster := rfl
@[simp] theorem State.setGovernor_orders (s : State) x : (s.setGovernor x).orders = s.orders := rfl
@[simp] theorem State.setGovernor_halt (s : State) x : (s.setGovernor x).halt = s.halt := rfl
@[simp] theorem State.setGovernor_line (s : State) x : (s.setGovernor x).line = s.line := rfl
@[simp] theorem State.setGovernor_loader (s : State) x : (s.setGovernor x).loader = s.loader := rfl
@[simp] theorem State.setGovernor_localTime (s : State) x : (s.setGovernor x).localTime = s.localTime := rfl
@[simp] theorem State.setGovernor_choices (s : State) x : (s.setGovernor x).choices = s.choices := rfl
@[simp] theorem State.setGovernor_pending (s : State) x : (s.setGovernor x).pending = s.pending := rfl

@[simp] theorem State.setSensor_resets (s : State) x : (s.setSensor x).resets = s.resets := rfl
@[simp] theorem State.setSensor_drive (s : State) x : (s.setSensor x).drive = s.drive := rfl
@[simp] theorem State.setSensor_governor (s : State) x : (s.setSensor x).governor = s.governor := rfl
@[simp] theorem State.setSensor_sensor (s : State) x : (s.setSensor x).sensor = x := rfl
@[simp] theorem State.setSensor_stride (s : State) x : (s.setSensor x).stride = s.stride := rfl
@[simp] theorem State.setSensor_holds (s : State) x : (s.setSensor x).holds = s.holds := rfl
@[simp] theorem State.setSensor_claim (s : State) x : (s.setSensor x).claim = s.claim := rfl
@[simp] theorem State.setSensor_pace (s : State) x : (s.setSensor x).pace = s.pace := rfl
@[simp] theorem State.setSensor_roster (s : State) x : (s.setSensor x).roster = s.roster := rfl
@[simp] theorem State.setSensor_orders (s : State) x : (s.setSensor x).orders = s.orders := rfl
@[simp] theorem State.setSensor_halt (s : State) x : (s.setSensor x).halt = s.halt := rfl
@[simp] theorem State.setSensor_line (s : State) x : (s.setSensor x).line = s.line := rfl
@[simp] theorem State.setSensor_loader (s : State) x : (s.setSensor x).loader = s.loader := rfl
@[simp] theorem State.setSensor_localTime (s : State) x : (s.setSensor x).localTime = s.localTime := rfl
@[simp] theorem State.setSensor_choices (s : State) x : (s.setSensor x).choices = s.choices := rfl
@[simp] theorem State.setSensor_pending (s : State) x : (s.setSensor x).pending = s.pending := rfl

@[simp] theorem State.setStride_resets (s : State) x : (s.setStride x).resets = s.resets := rfl
@[simp] theorem State.setStride_drive (s : State) x : (s.setStride x).drive = s.drive := rfl
@[simp] theorem State.setStride_governor (s : State) x : (s.setStride x).governor = s.governor := rfl
@[simp] theorem State.setStride_sensor (s : State) x : (s.setStride x).sensor = s.sensor := rfl
@[simp] theorem State.setStride_stride (s : State) x : (s.setStride x).stride = x := rfl
@[simp] theorem State.setStride_holds (s : State) x : (s.setStride x).holds = s.holds := rfl
@[simp] theorem State.setStride_claim (s : State) x : (s.setStride x).claim = s.claim := rfl
@[simp] theorem State.setStride_pace (s : State) x : (s.setStride x).pace = s.pace := rfl
@[simp] theorem State.setStride_roster (s : State) x : (s.setStride x).roster = s.roster := rfl
@[simp] theorem State.setStride_orders (s : State) x : (s.setStride x).orders = s.orders := rfl
@[simp] theorem State.setStride_halt (s : State) x : (s.setStride x).halt = s.halt := rfl
@[simp] theorem State.setStride_line (s : State) x : (s.setStride x).line = s.line := rfl
@[simp] theorem State.setStride_loader (s : State) x : (s.setStride x).loader = s.loader := rfl
@[simp] theorem State.setStride_localTime (s : State) x : (s.setStride x).localTime = s.localTime := rfl
@[simp] theorem State.setStride_choices (s : State) x : (s.setStride x).choices = s.choices := rfl
@[simp] theorem State.setStride_pending (s : State) x : (s.setStride x).pending = s.pending := rfl

@[simp] theorem State.setHolds_resets (s : State) x : (s.setHolds x).resets = s.resets := rfl
@[simp] theorem State.setHolds_drive (s : State) x : (s.setHolds x).drive = s.drive := rfl
@[simp] theorem State.setHolds_governor (s : State) x : (s.setHolds x).governor = s.governor := rfl
@[simp] theorem State.setHolds_sensor (s : State) x : (s.setHolds x).sensor = s.sensor := rfl
@[simp] theorem State.setHolds_stride (s : State) x : (s.setHolds x).stride = s.stride := rfl
@[simp] theorem State.setHolds_holds (s : State) x : (s.setHolds x).holds = x := rfl
@[simp] theorem State.setHolds_claim (s : State) x : (s.setHolds x).claim = s.claim := rfl
@[simp] theorem State.setHolds_pace (s : State) x : (s.setHolds x).pace = s.pace := rfl
@[simp] theorem State.setHolds_roster (s : State) x : (s.setHolds x).roster = s.roster := rfl
@[simp] theorem State.setHolds_orders (s : State) x : (s.setHolds x).orders = s.orders := rfl
@[simp] theorem State.setHolds_halt (s : State) x : (s.setHolds x).halt = s.halt := rfl
@[simp] theorem State.setHolds_line (s : State) x : (s.setHolds x).line = s.line := rfl
@[simp] theorem State.setHolds_loader (s : State) x : (s.setHolds x).loader = s.loader := rfl
@[simp] theorem State.setHolds_localTime (s : State) x : (s.setHolds x).localTime = s.localTime := rfl
@[simp] theorem State.setHolds_choices (s : State) x : (s.setHolds x).choices = s.choices := rfl
@[simp] theorem State.setHolds_pending (s : State) x : (s.setHolds x).pending = s.pending := rfl

@[simp] theorem State.setClaim_resets (s : State) x : (s.setClaim x).resets = s.resets := rfl
@[simp] theorem State.setClaim_drive (s : State) x : (s.setClaim x).drive = s.drive := rfl
@[simp] theorem State.setClaim_governor (s : State) x : (s.setClaim x).governor = s.governor := rfl
@[simp] theorem State.setClaim_sensor (s : State) x : (s.setClaim x).sensor = s.sensor := rfl
@[simp] theorem State.setClaim_stride (s : State) x : (s.setClaim x).stride = s.stride := rfl
@[simp] theorem State.setClaim_holds (s : State) x : (s.setClaim x).holds = s.holds := rfl
@[simp] theorem State.setClaim_claim (s : State) x : (s.setClaim x).claim = x := rfl
@[simp] theorem State.setClaim_pace (s : State) x : (s.setClaim x).pace = s.pace := rfl
@[simp] theorem State.setClaim_roster (s : State) x : (s.setClaim x).roster = s.roster := rfl
@[simp] theorem State.setClaim_orders (s : State) x : (s.setClaim x).orders = s.orders := rfl
@[simp] theorem State.setClaim_halt (s : State) x : (s.setClaim x).halt = s.halt := rfl
@[simp] theorem State.setClaim_line (s : State) x : (s.setClaim x).line = s.line := rfl
@[simp] theorem State.setClaim_loader (s : State) x : (s.setClaim x).loader = s.loader := rfl
@[simp] theorem State.setClaim_localTime (s : State) x : (s.setClaim x).localTime = s.localTime := rfl
@[simp] theorem State.setClaim_choices (s : State) x : (s.setClaim x).choices = s.choices := rfl
@[simp] theorem State.setClaim_pending (s : State) x : (s.setClaim x).pending = s.pending := rfl

@[simp] theorem State.setPace_resets (s : State) x : (s.setPace x).resets = s.resets := rfl
@[simp] theorem State.setPace_drive (s : State) x : (s.setPace x).drive = s.drive := rfl
@[simp] theorem State.setPace_governor (s : State) x : (s.setPace x).governor = s.governor := rfl
@[simp] theorem State.setPace_sensor (s : State) x : (s.setPace x).sensor = s.sensor := rfl
@[simp] theorem State.setPace_stride (s : State) x : (s.setPace x).stride = s.stride := rfl
@[simp] theorem State.setPace_holds (s : State) x : (s.setPace x).holds = s.holds := rfl
@[simp] theorem State.setPace_claim (s : State) x : (s.setPace x).claim = s.claim := rfl
@[simp] theorem State.setPace_pace (s : State) x : (s.setPace x).pace = x := rfl
@[simp] theorem State.setPace_roster (s : State) x : (s.setPace x).roster = s.roster := rfl
@[simp] theorem State.setPace_orders (s : State) x : (s.setPace x).orders = s.orders := rfl
@[simp] theorem State.setPace_halt (s : State) x : (s.setPace x).halt = s.halt := rfl
@[simp] theorem State.setPace_line (s : State) x : (s.setPace x).line = s.line := rfl
@[simp] theorem State.setPace_loader (s : State) x : (s.setPace x).loader = s.loader := rfl
@[simp] theorem State.setPace_localTime (s : State) x : (s.setPace x).localTime = s.localTime := rfl
@[simp] theorem State.setPace_choices (s : State) x : (s.setPace x).choices = s.choices := rfl
@[simp] theorem State.setPace_pending (s : State) x : (s.setPace x).pending = s.pending := rfl

@[simp] theorem State.setRoster_resets (s : State) x : (s.setRoster x).resets = s.resets := rfl
@[simp] theorem State.setRoster_drive (s : State) x : (s.setRoster x).drive = s.drive := rfl
@[simp] theorem State.setRoster_governor (s : State) x : (s.setRoster x).governor = s.governor := rfl
@[simp] theorem State.setRoster_sensor (s : State) x : (s.setRoster x).sensor = s.sensor := rfl
@[simp] theorem State.setRoster_stride (s : State) x : (s.setRoster x).stride = s.stride := rfl
@[simp] theorem State.setRoster_holds (s : State) x : (s.setRoster x).holds = s.holds := rfl
@[simp] theorem State.setRoster_claim (s : State) x : (s.setRoster x).claim = s.claim := rfl
@[simp] theorem State.setRoster_pace (s : State) x : (s.setRoster x).pace = s.pace := rfl
@[simp] theorem State.setRoster_roster (s : State) x : (s.setRoster x).roster = x := rfl
@[simp] theorem State.setRoster_orders (s : State) x : (s.setRoster x).orders = s.orders := rfl
@[simp] theorem State.setRoster_halt (s : State) x : (s.setRoster x).halt = s.halt := rfl
@[simp] theorem State.setRoster_line (s : State) x : (s.setRoster x).line = s.line := rfl
@[simp] theorem State.setRoster_loader (s : State) x : (s.setRoster x).loader = s.loader := rfl
@[simp] theorem State.setRoster_localTime (s : State) x : (s.setRoster x).localTime = s.localTime := rfl
@[simp] theorem State.setRoster_choices (s : State) x : (s.setRoster x).choices = s.choices := rfl
@[simp] theorem State.setRoster_pending (s : State) x : (s.setRoster x).pending = s.pending := rfl

@[simp] theorem State.setOrders_resets (s : State) x : (s.setOrders x).resets = s.resets := rfl
@[simp] theorem State.setOrders_drive (s : State) x : (s.setOrders x).drive = s.drive := rfl
@[simp] theorem State.setOrders_governor (s : State) x : (s.setOrders x).governor = s.governor := rfl
@[simp] theorem State.setOrders_sensor (s : State) x : (s.setOrders x).sensor = s.sensor := rfl
@[simp] theorem State.setOrders_stride (s : State) x : (s.setOrders x).stride = s.stride := rfl
@[simp] theorem State.setOrders_holds (s : State) x : (s.setOrders x).holds = s.holds := rfl
@[simp] theorem State.setOrders_claim (s : State) x : (s.setOrders x).claim = s.claim := rfl
@[simp] theorem State.setOrders_pace (s : State) x : (s.setOrders x).pace = s.pace := rfl
@[simp] theorem State.setOrders_roster (s : State) x : (s.setOrders x).roster = s.roster := rfl
@[simp] theorem State.setOrders_orders (s : State) x : (s.setOrders x).orders = x := rfl
@[simp] theorem State.setOrders_halt (s : State) x : (s.setOrders x).halt = s.halt := rfl
@[simp] theorem State.setOrders_line (s : State) x : (s.setOrders x).line = s.line := rfl
@[simp] theorem State.setOrders_loader (s : State) x : (s.setOrders x).loader = s.loader := rfl
@[simp] theorem State.setOrders_localTime (s : State) x : (s.setOrders x).localTime = s.localTime := rfl
@[simp] theorem State.setOrders_choices (s : State) x : (s.setOrders x).choices = s.choices := rfl
@[simp] theorem State.setOrders_pending (s : State) x : (s.setOrders x).pending = s.pending := rfl

@[simp] theorem State.setHalt_resets (s : State) x : (s.setHalt x).resets = s.resets := rfl
@[simp] theorem State.setHalt_drive (s : State) x : (s.setHalt x).drive = s.drive := rfl
@[simp] theorem State.setHalt_governor (s : State) x : (s.setHalt x).governor = s.governor := rfl
@[simp] theorem State.setHalt_sensor (s : State) x : (s.setHalt x).sensor = s.sensor := rfl
@[simp] theorem State.setHalt_stride (s : State) x : (s.setHalt x).stride = s.stride := rfl
@[simp] theorem State.setHalt_holds (s : State) x : (s.setHalt x).holds = s.holds := rfl
@[simp] theorem State.setHalt_claim (s : State) x : (s.setHalt x).claim = s.claim := rfl
@[simp] theorem State.setHalt_pace (s : State) x : (s.setHalt x).pace = s.pace := rfl
@[simp] theorem State.setHalt_roster (s : State) x : (s.setHalt x).roster = s.roster := rfl
@[simp] theorem State.setHalt_orders (s : State) x : (s.setHalt x).orders = s.orders := rfl
@[simp] theorem State.setHalt_halt (s : State) x : (s.setHalt x).halt = x := rfl
@[simp] theorem State.setHalt_line (s : State) x : (s.setHalt x).line = s.line := rfl
@[simp] theorem State.setHalt_loader (s : State) x : (s.setHalt x).loader = s.loader := rfl
@[simp] theorem State.setHalt_localTime (s : State) x : (s.setHalt x).localTime = s.localTime := rfl
@[simp] theorem State.setHalt_choices (s : State) x : (s.setHalt x).choices = s.choices := rfl
@[simp] theorem State.setHalt_pending (s : State) x : (s.setHalt x).pending = s.pending := rfl

@[simp] theorem State.setLine_resets (s : State) x : (s.setLine x).resets = s.resets := rfl
@[simp] theorem State.setLine_drive (s : State) x : (s.setLine x).drive = s.drive := rfl
@[simp] theorem State.setLine_governor (s : State) x : (s.setLine x).governor = s.governor := rfl
@[simp] theorem State.setLine_sensor (s : State) x : (s.setLine x).sensor = s.sensor := rfl
@[simp] theorem State.setLine_stride (s : State) x : (s.setLine x).stride = s.stride := rfl
@[simp] theorem State.setLine_holds (s : State) x : (s.setLine x).holds = s.holds := rfl
@[simp] theorem State.setLine_claim (s : State) x : (s.setLine x).claim = s.claim := rfl
@[simp] theorem State.setLine_pace (s : State) x : (s.setLine x).pace = s.pace := rfl
@[simp] theorem State.setLine_roster (s : State) x : (s.setLine x).roster = s.roster := rfl
@[simp] theorem State.setLine_orders (s : State) x : (s.setLine x).orders = s.orders := rfl
@[simp] theorem State.setLine_halt (s : State) x : (s.setLine x).halt = s.halt := rfl
@[simp] theorem State.setLine_line (s : State) x : (s.setLine x).line = x := rfl
@[simp] theorem State.setLine_loader (s : State) x : (s.setLine x).loader = s.loader := rfl
@[simp] theorem State.setLine_localTime (s : State) x : (s.setLine x).localTime = s.localTime := rfl
@[simp] theorem State.setLine_choices (s : State) x : (s.setLine x).choices = s.choices := rfl
@[simp] theorem State.setLine_pending (s : State) x : (s.setLine x).pending = s.pending := rfl

@[simp] theorem State.setLoader_resets (s : State) x : (s.setLoader x).resets = s.resets := rfl
@[simp] theorem State.setLoader_drive (s : State) x : (s.setLoader x).drive = s.drive := rfl
@[simp] theorem State.setLoader_governor (s : State) x : (s.setLoader x).governor = s.governor := rfl
@[simp] theorem State.setLoader_sensor (s : State) x : (s.setLoader x).sensor = s.sensor := rfl
@[simp] theorem State.setLoader_stride (s : State) x : (s.setLoader x).stride = s.stride := rfl
@[simp] theorem State.setLoader_holds (s : State) x : (s.setLoader x).holds = s.holds := rfl
@[simp] theorem State.setLoader_claim (s : State) x : (s.setLoader x).claim = s.claim := rfl
@[simp] theorem State.setLoader_pace (s : State) x : (s.setLoader x).pace = s.pace := rfl
@[simp] theorem State.setLoader_roster (s : State) x : (s.setLoader x).roster = s.roster := rfl
@[simp] theorem State.setLoader_orders (s : State) x : (s.setLoader x).orders = s.orders := rfl
@[simp] theorem State.setLoader_halt (s : State) x : (s.setLoader x).halt = s.halt := rfl
@[simp] theorem State.setLoader_line (s : State) x : (s.setLoader x).line = s.line := rfl
@[simp] theorem State.setLoader_loader (s : State) x : (s.setLoader x).loader = x := rfl
@[simp] theorem State.setLoader_localTime (s : State) x : (s.setLoader x).localTime = s.localTime := rfl
@[simp] theorem State.setLoader_choices (s : State) x : (s.setLoader x).choices = s.choices := rfl
@[simp] theorem State.setLoader_pending (s : State) x : (s.setLoader x).pending = s.pending := rfl

@[simp] theorem State.setLocalTime_resets (s : State) x : (s.setLocalTime x).resets = s.resets := rfl
@[simp] theorem State.setLocalTime_drive (s : State) x : (s.setLocalTime x).drive = s.drive := rfl
@[simp] theorem State.setLocalTime_governor (s : State) x : (s.setLocalTime x).governor = s.governor := rfl
@[simp] theorem State.setLocalTime_sensor (s : State) x : (s.setLocalTime x).sensor = s.sensor := rfl
@[simp] theorem State.setLocalTime_stride (s : State) x : (s.setLocalTime x).stride = s.stride := rfl
@[simp] theorem State.setLocalTime_holds (s : State) x : (s.setLocalTime x).holds = s.holds := rfl
@[simp] theorem State.setLocalTime_claim (s : State) x : (s.setLocalTime x).claim = s.claim := rfl
@[simp] theorem State.setLocalTime_pace (s : State) x : (s.setLocalTime x).pace = s.pace := rfl
@[simp] theorem State.setLocalTime_roster (s : State) x : (s.setLocalTime x).roster = s.roster := rfl
@[simp] theorem State.setLocalTime_orders (s : State) x : (s.setLocalTime x).orders = s.orders := rfl
@[simp] theorem State.setLocalTime_halt (s : State) x : (s.setLocalTime x).halt = s.halt := rfl
@[simp] theorem State.setLocalTime_line (s : State) x : (s.setLocalTime x).line = s.line := rfl
@[simp] theorem State.setLocalTime_loader (s : State) x : (s.setLocalTime x).loader = s.loader := rfl
@[simp] theorem State.setLocalTime_localTime (s : State) x : (s.setLocalTime x).localTime = x := rfl
@[simp] theorem State.setLocalTime_choices (s : State) x : (s.setLocalTime x).choices = s.choices := rfl
@[simp] theorem State.setLocalTime_pending (s : State) x : (s.setLocalTime x).pending = s.pending := rfl

@[simp] theorem State.setChoices_resets (s : State) x : (s.setChoices x).resets = s.resets := rfl
@[simp] theorem State.setChoices_drive (s : State) x : (s.setChoices x).drive = s.drive := rfl
@[simp] theorem State.setChoices_governor (s : State) x : (s.setChoices x).governor = s.governor := rfl
@[simp] theorem State.setChoices_sensor (s : State) x : (s.setChoices x).sensor = s.sensor := rfl
@[simp] theorem State.setChoices_stride (s : State) x : (s.setChoices x).stride = s.stride := rfl
@[simp] theorem State.setChoices_holds (s : State) x : (s.setChoices x).holds = s.holds := rfl
@[simp] theorem State.setChoices_claim (s : State) x : (s.setChoices x).claim = s.claim := rfl
@[simp] theorem State.setChoices_pace (s : State) x : (s.setChoices x).pace = s.pace := rfl
@[simp] theorem State.setChoices_roster (s : State) x : (s.setChoices x).roster = s.roster := rfl
@[simp] theorem State.setChoices_orders (s : State) x : (s.setChoices x).orders = s.orders := rfl
@[simp] theorem State.setChoices_halt (s : State) x : (s.setChoices x).halt = s.halt := rfl
@[simp] theorem State.setChoices_line (s : State) x : (s.setChoices x).line = s.line := rfl
@[simp] theorem State.setChoices_loader (s : State) x : (s.setChoices x).loader = s.loader := rfl
@[simp] theorem State.setChoices_localTime (s : State) x : (s.setChoices x).localTime = s.localTime := rfl
@[simp] theorem State.setChoices_choices (s : State) x : (s.setChoices x).choices = x := rfl
@[simp] theorem State.setChoices_pending (s : State) x : (s.setChoices x).pending = s.pending := rfl

@[simp] theorem State.setPending_resets (s : State) x : (s.setPending x).resets = s.resets := rfl
@[simp] theorem State.setPending_drive (s : State) x : (s.setPending x).drive = s.drive := rfl
@[simp] theorem State.setPending_governor (s : State) x : (s.setPending x).governor = s.governor := rfl
@[simp] theorem State.setPending_sensor (s : State) x : (s.setPending x).sensor = s.sensor := rfl
@[simp] theorem State.setPending_stride (s : State) x : (s.setPending x).stride = s.stride := rfl
@[simp] theorem State.setPending_holds (s : State) x : (s.setPending x).holds = s.holds := rfl
@[simp] theorem State.setPending_claim (s : State) x : (s.setPending x).claim = s.claim := rfl
@[simp] theorem State.setPending_pace (s : State) x : (s.setPending x).pace = s.pace := rfl
@[simp] theorem State.setPending_roster (s : State) x : (s.setPending x).roster = s.roster := rfl
@[simp] theorem State.setPending_orders (s : State) x : (s.setPending x).orders = s.orders := rfl
@[simp] theorem State.setPending_halt (s : State) x : (s.setPending x).halt = s.halt := rfl
@[simp] theorem State.setPending_line (s : State) x : (s.setPending x).line = s.line := rfl
@[simp] theorem State.setPending_loader (s : State) x : (s.setPending x).loader = s.loader := rfl
@[simp] theorem State.setPending_localTime (s : State) x : (s.setPending x).localTime = s.localTime := rfl
@[simp] theorem State.setPending_choices (s : State) x : (s.setPending x).choices = s.choices := rfl
@[simp] theorem State.setPending_pending (s : State) x : (s.setPending x).pending = x := rfl

end Sys2Proof.Machine
end

