-- ==== Sys2Proof/Laws/Stages.lean ====
section
/-! SUPPORT. The stages of a transition (R11): one lemma for each block that a stage leaves alone, and one for each block
it changes. -/
namespace Sys2Proof.Machine

@[simp] theorem stageContactorOff_resets (old : DriveState) (s : State) : (stageContactorOff old s).resets = s.resets := by unfold stageContactorOff; repeat' (first | rfl | split)
@[simp] theorem stageContactorOff_governor (old : DriveState) (s : State) : (stageContactorOff old s).governor = s.governor := by unfold stageContactorOff; repeat' (first | rfl | split)
@[simp] theorem stageContactorOff_sensor (old : DriveState) (s : State) : (stageContactorOff old s).sensor = s.sensor := by unfold stageContactorOff; repeat' (first | rfl | split)
@[simp] theorem stageContactorOff_holds (old : DriveState) (s : State) : (stageContactorOff old s).holds = s.holds := by unfold stageContactorOff; repeat' (first | rfl | split)
@[simp] theorem stageContactorOff_claim (old : DriveState) (s : State) : (stageContactorOff old s).claim = s.claim := by unfold stageContactorOff; repeat' (first | rfl | split)
@[simp] theorem stageContactorOff_pace (old : DriveState) (s : State) : (stageContactorOff old s).pace = s.pace := by unfold stageContactorOff; repeat' (first | rfl | split)
@[simp] theorem stageContactorOff_roster (old : DriveState) (s : State) : (stageContactorOff old s).roster = s.roster := by unfold stageContactorOff; repeat' (first | rfl | split)
@[simp] theorem stageContactorOff_orders (old : DriveState) (s : State) : (stageContactorOff old s).orders = s.orders := by unfold stageContactorOff; repeat' (first | rfl | split)
@[simp] theorem stageContactorOff_halt (old : DriveState) (s : State) : (stageContactorOff old s).halt = s.halt := by unfold stageContactorOff; repeat' (first | rfl | split)
@[simp] theorem stageContactorOff_line (old : DriveState) (s : State) : (stageContactorOff old s).line = s.line := by unfold stageContactorOff; repeat' (first | rfl | split)
@[simp] theorem stageContactorOff_loader (old : DriveState) (s : State) : (stageContactorOff old s).loader = s.loader := by unfold stageContactorOff; repeat' (first | rfl | split)
@[simp] theorem stageContactorOff_localTime (old : DriveState) (s : State) : (stageContactorOff old s).localTime = s.localTime := by unfold stageContactorOff; repeat' (first | rfl | split)
@[simp] theorem stageContactorOff_choices (old : DriveState) (s : State) : (stageContactorOff old s).choices = s.choices := by unfold stageContactorOff; repeat' (first | rfl | split)
@[simp] theorem stageContactorOff_pending (old : DriveState) (s : State) : (stageContactorOff old s).pending = s.pending := by unfold stageContactorOff; repeat' (first | rfl | split)

@[simp] theorem stageDwell_resets (old new : DriveState) (s : State) : (stageDwell old new s).resets = s.resets := by unfold stageDwell; repeat' (first | rfl | split)
@[simp] theorem stageDwell_sensor (old new : DriveState) (s : State) : (stageDwell old new s).sensor = s.sensor := by unfold stageDwell; repeat' (first | rfl | split)
@[simp] theorem stageDwell_stride (old new : DriveState) (s : State) : (stageDwell old new s).stride = s.stride := by unfold stageDwell; repeat' (first | rfl | split)
@[simp] theorem stageDwell_holds (old new : DriveState) (s : State) : (stageDwell old new s).holds = s.holds := by unfold stageDwell; repeat' (first | rfl | split)
@[simp] theorem stageDwell_claim (old new : DriveState) (s : State) : (stageDwell old new s).claim = s.claim := by unfold stageDwell; repeat' (first | rfl | split)
@[simp] theorem stageDwell_pace (old new : DriveState) (s : State) : (stageDwell old new s).pace = s.pace := by unfold stageDwell; repeat' (first | rfl | split)
@[simp] theorem stageDwell_roster (old new : DriveState) (s : State) : (stageDwell old new s).roster = s.roster := by unfold stageDwell; repeat' (first | rfl | split)
@[simp] theorem stageDwell_orders (old new : DriveState) (s : State) : (stageDwell old new s).orders = s.orders := by unfold stageDwell; repeat' (first | rfl | split)
@[simp] theorem stageDwell_halt (old new : DriveState) (s : State) : (stageDwell old new s).halt = s.halt := by unfold stageDwell; repeat' (first | rfl | split)
@[simp] theorem stageDwell_line (old new : DriveState) (s : State) : (stageDwell old new s).line = s.line := by unfold stageDwell; repeat' (first | rfl | split)
@[simp] theorem stageDwell_loader (old new : DriveState) (s : State) : (stageDwell old new s).loader = s.loader := by unfold stageDwell; repeat' (first | rfl | split)
@[simp] theorem stageDwell_localTime (old new : DriveState) (s : State) : (stageDwell old new s).localTime = s.localTime := by unfold stageDwell; repeat' (first | rfl | split)
@[simp] theorem stageDwell_choices (old new : DriveState) (s : State) : (stageDwell old new s).choices = s.choices := by unfold stageDwell; repeat' (first | rfl | split)
@[simp] theorem stageDwell_pending (old new : DriveState) (s : State) : (stageDwell old new s).pending = s.pending := by unfold stageDwell; repeat' (first | rfl | split)

@[simp] theorem stageLoop_resets (old new : DriveState) (s : State) : (stageLoop old new s).resets = s.resets := by unfold stageLoop; repeat' (first | rfl | split)
@[simp] theorem stageLoop_drive (old new : DriveState) (s : State) : (stageLoop old new s).drive = s.drive := by unfold stageLoop; repeat' (first | rfl | split)
@[simp] theorem stageLoop_governor (old new : DriveState) (s : State) : (stageLoop old new s).governor = s.governor := by unfold stageLoop; repeat' (first | rfl | split)
@[simp] theorem stageLoop_sensor (old new : DriveState) (s : State) : (stageLoop old new s).sensor = s.sensor := by unfold stageLoop; repeat' (first | rfl | split)
@[simp] theorem stageLoop_stride (old new : DriveState) (s : State) : (stageLoop old new s).stride = s.stride := by unfold stageLoop; repeat' (first | rfl | split)
@[simp] theorem stageLoop_holds (old new : DriveState) (s : State) : (stageLoop old new s).holds = s.holds := by unfold stageLoop; repeat' (first | rfl | split)
@[simp] theorem stageLoop_claim (old new : DriveState) (s : State) : (stageLoop old new s).claim = s.claim := by unfold stageLoop; repeat' (first | rfl | split)
@[simp] theorem stageLoop_pace (old new : DriveState) (s : State) : (stageLoop old new s).pace = s.pace := by unfold stageLoop; repeat' (first | rfl | split)
@[simp] theorem stageLoop_roster (old new : DriveState) (s : State) : (stageLoop old new s).roster = s.roster := by unfold stageLoop; repeat' (first | rfl | split)
@[simp] theorem stageLoop_orders (old new : DriveState) (s : State) : (stageLoop old new s).orders = s.orders := by unfold stageLoop; repeat' (first | rfl | split)
@[simp] theorem stageLoop_line (old new : DriveState) (s : State) : (stageLoop old new s).line = s.line := by unfold stageLoop; repeat' (first | rfl | split)
@[simp] theorem stageLoop_loader (old new : DriveState) (s : State) : (stageLoop old new s).loader = s.loader := by unfold stageLoop; repeat' (first | rfl | split)
@[simp] theorem stageLoop_localTime (old new : DriveState) (s : State) : (stageLoop old new s).localTime = s.localTime := by unfold stageLoop; repeat' (first | rfl | split)
@[simp] theorem stageLoop_choices (old new : DriveState) (s : State) : (stageLoop old new s).choices = s.choices := by unfold stageLoop; repeat' (first | rfl | split)
@[simp] theorem stageLoop_pending (old new : DriveState) (s : State) : (stageLoop old new s).pending = s.pending := by unfold stageLoop; repeat' (first | rfl | split)

@[simp] theorem stageEmptying_resets (new : DriveState) (s : State) : (stageEmptying new s).resets = s.resets := by unfold stageEmptying; repeat' (first | rfl | split)
@[simp] theorem stageEmptying_drive (new : DriveState) (s : State) : (stageEmptying new s).drive = s.drive := by unfold stageEmptying; repeat' (first | rfl | split)
@[simp] theorem stageEmptying_governor (new : DriveState) (s : State) : (stageEmptying new s).governor = s.governor := by unfold stageEmptying; repeat' (first | rfl | split)
@[simp] theorem stageEmptying_sensor (new : DriveState) (s : State) : (stageEmptying new s).sensor = s.sensor := by unfold stageEmptying; repeat' (first | rfl | split)
@[simp] theorem stageEmptying_stride (new : DriveState) (s : State) : (stageEmptying new s).stride = s.stride := by unfold stageEmptying; repeat' (first | rfl | split)
@[simp] theorem stageEmptying_pace (new : DriveState) (s : State) : (stageEmptying new s).pace = s.pace := by unfold stageEmptying; repeat' (first | rfl | split)
@[simp] theorem stageEmptying_roster (new : DriveState) (s : State) : (stageEmptying new s).roster = s.roster := by unfold stageEmptying; repeat' (first | rfl | split)
@[simp] theorem stageEmptying_orders (new : DriveState) (s : State) : (stageEmptying new s).orders = s.orders := by unfold stageEmptying; repeat' (first | rfl | split)
@[simp] theorem stageEmptying_halt (new : DriveState) (s : State) : (stageEmptying new s).halt = s.halt := by unfold stageEmptying; repeat' (first | rfl | split)
@[simp] theorem stageEmptying_loader (new : DriveState) (s : State) : (stageEmptying new s).loader = s.loader := by unfold stageEmptying; repeat' (first | rfl | split)
@[simp] theorem stageEmptying_localTime (new : DriveState) (s : State) : (stageEmptying new s).localTime = s.localTime := by unfold stageEmptying; repeat' (first | rfl | split)
@[simp] theorem stageEmptying_choices (new : DriveState) (s : State) : (stageEmptying new s).choices = s.choices := by unfold stageEmptying; repeat' (first | rfl | split)
@[simp] theorem stageEmptying_pending (new : DriveState) (s : State) : (stageEmptying new s).pending = s.pending := by unfold stageEmptying; repeat' (first | rfl | split)

@[simp] theorem stagePace_resets (new : DriveState) (s : State) : (stagePace new s).resets = s.resets := by unfold stagePace; repeat' (first | rfl | split)
@[simp] theorem stagePace_drive (new : DriveState) (s : State) : (stagePace new s).drive = s.drive := by unfold stagePace; repeat' (first | rfl | split)
@[simp] theorem stagePace_governor (new : DriveState) (s : State) : (stagePace new s).governor = s.governor := by unfold stagePace; repeat' (first | rfl | split)
@[simp] theorem stagePace_sensor (new : DriveState) (s : State) : (stagePace new s).sensor = s.sensor := by unfold stagePace; repeat' (first | rfl | split)
@[simp] theorem stagePace_stride (new : DriveState) (s : State) : (stagePace new s).stride = s.stride := by unfold stagePace; repeat' (first | rfl | split)
@[simp] theorem stagePace_holds (new : DriveState) (s : State) : (stagePace new s).holds = s.holds := by unfold stagePace; repeat' (first | rfl | split)
@[simp] theorem stagePace_claim (new : DriveState) (s : State) : (stagePace new s).claim = s.claim := by unfold stagePace; repeat' (first | rfl | split)
@[simp] theorem stagePace_roster (new : DriveState) (s : State) : (stagePace new s).roster = s.roster := by unfold stagePace; repeat' (first | rfl | split)
@[simp] theorem stagePace_orders (new : DriveState) (s : State) : (stagePace new s).orders = s.orders := by unfold stagePace; repeat' (first | rfl | split)
@[simp] theorem stagePace_halt (new : DriveState) (s : State) : (stagePace new s).halt = s.halt := by unfold stagePace; repeat' (first | rfl | split)
@[simp] theorem stagePace_line (new : DriveState) (s : State) : (stagePace new s).line = s.line := by unfold stagePace; repeat' (first | rfl | split)
@[simp] theorem stagePace_loader (new : DriveState) (s : State) : (stagePace new s).loader = s.loader := by unfold stagePace; repeat' (first | rfl | split)
@[simp] theorem stagePace_localTime (new : DriveState) (s : State) : (stagePace new s).localTime = s.localTime := by unfold stagePace; repeat' (first | rfl | split)
@[simp] theorem stagePace_choices (new : DriveState) (s : State) : (stagePace new s).choices = s.choices := by unfold stagePace; repeat' (first | rfl | split)
@[simp] theorem stagePace_pending (new : DriveState) (s : State) : (stagePace new s).pending = s.pending := by unfold stagePace; repeat' (first | rfl | split)

@[simp] theorem stageContactorOn_resets (new : DriveState) (s : State) : (stageContactorOn new s).resets = s.resets := by unfold stageContactorOn; repeat' (first | rfl | split)
@[simp] theorem stageContactorOn_governor (new : DriveState) (s : State) : (stageContactorOn new s).governor = s.governor := by unfold stageContactorOn; repeat' (first | rfl | split)
@[simp] theorem stageContactorOn_sensor (new : DriveState) (s : State) : (stageContactorOn new s).sensor = s.sensor := by unfold stageContactorOn; repeat' (first | rfl | split)
@[simp] theorem stageContactorOn_holds (new : DriveState) (s : State) : (stageContactorOn new s).holds = s.holds := by unfold stageContactorOn; repeat' (first | rfl | split)
@[simp] theorem stageContactorOn_claim (new : DriveState) (s : State) : (stageContactorOn new s).claim = s.claim := by unfold stageContactorOn; repeat' (first | rfl | split)
@[simp] theorem stageContactorOn_pace (new : DriveState) (s : State) : (stageContactorOn new s).pace = s.pace := by unfold stageContactorOn; repeat' (first | rfl | split)
@[simp] theorem stageContactorOn_roster (new : DriveState) (s : State) : (stageContactorOn new s).roster = s.roster := by unfold stageContactorOn; repeat' (first | rfl | split)
@[simp] theorem stageContactorOn_orders (new : DriveState) (s : State) : (stageContactorOn new s).orders = s.orders := by unfold stageContactorOn; repeat' (first | rfl | split)
@[simp] theorem stageContactorOn_halt (new : DriveState) (s : State) : (stageContactorOn new s).halt = s.halt := by unfold stageContactorOn; repeat' (first | rfl | split)
@[simp] theorem stageContactorOn_line (new : DriveState) (s : State) : (stageContactorOn new s).line = s.line := by unfold stageContactorOn; repeat' (first | rfl | split)
@[simp] theorem stageContactorOn_loader (new : DriveState) (s : State) : (stageContactorOn new s).loader = s.loader := by unfold stageContactorOn; repeat' (first | rfl | split)
@[simp] theorem stageContactorOn_localTime (new : DriveState) (s : State) : (stageContactorOn new s).localTime = s.localTime := by unfold stageContactorOn; repeat' (first | rfl | split)
@[simp] theorem stageContactorOn_choices (new : DriveState) (s : State) : (stageContactorOn new s).choices = s.choices := by unfold stageContactorOn; repeat' (first | rfl | split)
@[simp] theorem stageContactorOn_pending (new : DriveState) (s : State) : (stageContactorOn new s).pending = s.pending := by unfold stageContactorOn; repeat' (first | rfl | split)

@[simp] theorem stageMuster_resets (old new : DriveState) (s : State) : (stageMuster old new s).resets = s.resets := by unfold stageMuster; repeat' (first | rfl | split)
@[simp] theorem stageMuster_drive (old new : DriveState) (s : State) : (stageMuster old new s).drive = s.drive := by unfold stageMuster; repeat' (first | rfl | split)
@[simp] theorem stageMuster_governor (old new : DriveState) (s : State) : (stageMuster old new s).governor = s.governor := by unfold stageMuster; repeat' (first | rfl | split)
@[simp] theorem stageMuster_sensor (old new : DriveState) (s : State) : (stageMuster old new s).sensor = s.sensor := by unfold stageMuster; repeat' (first | rfl | split)
@[simp] theorem stageMuster_stride (old new : DriveState) (s : State) : (stageMuster old new s).stride = s.stride := by unfold stageMuster; repeat' (first | rfl | split)
@[simp] theorem stageMuster_holds (old new : DriveState) (s : State) : (stageMuster old new s).holds = s.holds := by unfold stageMuster; repeat' (first | rfl | split)
@[simp] theorem stageMuster_claim (old new : DriveState) (s : State) : (stageMuster old new s).claim = s.claim := by unfold stageMuster; repeat' (first | rfl | split)
@[simp] theorem stageMuster_pace (old new : DriveState) (s : State) : (stageMuster old new s).pace = s.pace := by unfold stageMuster; repeat' (first | rfl | split)
@[simp] theorem stageMuster_roster (old new : DriveState) (s : State) : (stageMuster old new s).roster = s.roster := by unfold stageMuster; repeat' (first | rfl | split)
@[simp] theorem stageMuster_halt (old new : DriveState) (s : State) : (stageMuster old new s).halt = s.halt := by unfold stageMuster; repeat' (first | rfl | split)
@[simp] theorem stageMuster_line (old new : DriveState) (s : State) : (stageMuster old new s).line = s.line := by unfold stageMuster; repeat' (first | rfl | split)
@[simp] theorem stageMuster_loader (old new : DriveState) (s : State) : (stageMuster old new s).loader = s.loader := by unfold stageMuster; repeat' (first | rfl | split)
@[simp] theorem stageMuster_localTime (old new : DriveState) (s : State) : (stageMuster old new s).localTime = s.localTime := by unfold stageMuster; repeat' (first | rfl | split)
@[simp] theorem stageMuster_choices (old new : DriveState) (s : State) : (stageMuster old new s).choices = s.choices := by unfold stageMuster; repeat' (first | rfl | split)
@[simp] theorem stageMuster_pending (old new : DriveState) (s : State) : (stageMuster old new s).pending = s.pending := by unfold stageMuster; repeat' (first | rfl | split)

@[simp] theorem stageStatus_resets (new : DriveState) (s : State) : (stageStatus new s).resets = s.resets := by unfold stageStatus; repeat' (first | rfl | split)
@[simp] theorem stageStatus_drive (new : DriveState) (s : State) : (stageStatus new s).drive = s.drive := by unfold stageStatus; repeat' (first | rfl | split)
@[simp] theorem stageStatus_governor (new : DriveState) (s : State) : (stageStatus new s).governor = s.governor := by unfold stageStatus; repeat' (first | rfl | split)
@[simp] theorem stageStatus_sensor (new : DriveState) (s : State) : (stageStatus new s).sensor = s.sensor := by unfold stageStatus; repeat' (first | rfl | split)
@[simp] theorem stageStatus_stride (new : DriveState) (s : State) : (stageStatus new s).stride = s.stride := by unfold stageStatus; repeat' (first | rfl | split)
@[simp] theorem stageStatus_holds (new : DriveState) (s : State) : (stageStatus new s).holds = s.holds := by unfold stageStatus; repeat' (first | rfl | split)
@[simp] theorem stageStatus_claim (new : DriveState) (s : State) : (stageStatus new s).claim = s.claim := by unfold stageStatus; repeat' (first | rfl | split)
@[simp] theorem stageStatus_pace (new : DriveState) (s : State) : (stageStatus new s).pace = s.pace := by unfold stageStatus; repeat' (first | rfl | split)
@[simp] theorem stageStatus_roster (new : DriveState) (s : State) : (stageStatus new s).roster = s.roster := by unfold stageStatus; repeat' (first | rfl | split)
@[simp] theorem stageStatus_orders (new : DriveState) (s : State) : (stageStatus new s).orders = s.orders := by unfold stageStatus; repeat' (first | rfl | split)
@[simp] theorem stageStatus_halt (new : DriveState) (s : State) : (stageStatus new s).halt = s.halt := by unfold stageStatus; repeat' (first | rfl | split)
@[simp] theorem stageStatus_loader (new : DriveState) (s : State) : (stageStatus new s).loader = s.loader := by unfold stageStatus; repeat' (first | rfl | split)
@[simp] theorem stageStatus_localTime (new : DriveState) (s : State) : (stageStatus new s).localTime = s.localTime := by unfold stageStatus; repeat' (first | rfl | split)
@[simp] theorem stageStatus_choices (new : DriveState) (s : State) : (stageStatus new s).choices = s.choices := by unfold stageStatus; repeat' (first | rfl | split)
@[simp] theorem stageStatus_pending (new : DriveState) (s : State) : (stageStatus new s).pending = s.pending := by unfold stageStatus; repeat' (first | rfl | split)

@[simp] theorem stageBlocks_resets (old new : DriveState) (s : State) : (stageBlocks old new s).resets = s.resets := by unfold stageBlocks; repeat' (first | rfl | split)
@[simp] theorem stageBlocks_drive (old new : DriveState) (s : State) : (stageBlocks old new s).drive = s.drive := by unfold stageBlocks; repeat' (first | rfl | split)
@[simp] theorem stageBlocks_governor (old new : DriveState) (s : State) : (stageBlocks old new s).governor = s.governor := by unfold stageBlocks; repeat' (first | rfl | split)
@[simp] theorem stageBlocks_holds (old new : DriveState) (s : State) : (stageBlocks old new s).holds = s.holds := by unfold stageBlocks; repeat' (first | rfl | split)
@[simp] theorem stageBlocks_claim (old new : DriveState) (s : State) : (stageBlocks old new s).claim = s.claim := by unfold stageBlocks; repeat' (first | rfl | split)
@[simp] theorem stageBlocks_pace (old new : DriveState) (s : State) : (stageBlocks old new s).pace = s.pace := by unfold stageBlocks; repeat' (first | rfl | split)
@[simp] theorem stageBlocks_roster (old new : DriveState) (s : State) : (stageBlocks old new s).roster = s.roster := by unfold stageBlocks; repeat' (first | rfl | split)
@[simp] theorem stageBlocks_orders (old new : DriveState) (s : State) : (stageBlocks old new s).orders = s.orders := by unfold stageBlocks; repeat' (first | rfl | split)
@[simp] theorem stageBlocks_halt (old new : DriveState) (s : State) : (stageBlocks old new s).halt = s.halt := by unfold stageBlocks; repeat' (first | rfl | split)
@[simp] theorem stageBlocks_loader (old new : DriveState) (s : State) : (stageBlocks old new s).loader = s.loader := by unfold stageBlocks; repeat' (first | rfl | split)
@[simp] theorem stageBlocks_localTime (old new : DriveState) (s : State) : (stageBlocks old new s).localTime = s.localTime := by unfold stageBlocks; repeat' (first | rfl | split)
@[simp] theorem stageBlocks_choices (old new : DriveState) (s : State) : (stageBlocks old new s).choices = s.choices := by unfold stageBlocks; repeat' (first | rfl | split)
@[simp] theorem stageBlocks_pending (old new : DriveState) (s : State) : (stageBlocks old new s).pending = s.pending := by unfold stageBlocks; repeat' (first | rfl | split)

@[simp] theorem stageLamp_resets (new : DriveState) (s : State) : (stageLamp new s).resets = s.resets := rfl
@[simp] theorem stageLamp_governor (new : DriveState) (s : State) : (stageLamp new s).governor = s.governor := rfl
@[simp] theorem stageLamp_sensor (new : DriveState) (s : State) : (stageLamp new s).sensor = s.sensor := rfl
@[simp] theorem stageLamp_stride (new : DriveState) (s : State) : (stageLamp new s).stride = s.stride := rfl
@[simp] theorem stageLamp_holds (new : DriveState) (s : State) : (stageLamp new s).holds = s.holds := rfl
@[simp] theorem stageLamp_claim (new : DriveState) (s : State) : (stageLamp new s).claim = s.claim := rfl
@[simp] theorem stageLamp_pace (new : DriveState) (s : State) : (stageLamp new s).pace = s.pace := rfl
@[simp] theorem stageLamp_roster (new : DriveState) (s : State) : (stageLamp new s).roster = s.roster := rfl
@[simp] theorem stageLamp_orders (new : DriveState) (s : State) : (stageLamp new s).orders = s.orders := rfl
@[simp] theorem stageLamp_halt (new : DriveState) (s : State) : (stageLamp new s).halt = s.halt := rfl
@[simp] theorem stageLamp_line (new : DriveState) (s : State) : (stageLamp new s).line = s.line := rfl
@[simp] theorem stageLamp_loader (new : DriveState) (s : State) : (stageLamp new s).loader = s.loader := rfl
@[simp] theorem stageLamp_localTime (new : DriveState) (s : State) : (stageLamp new s).localTime = s.localTime := rfl
@[simp] theorem stageLamp_choices (new : DriveState) (s : State) : (stageLamp new s).choices = s.choices := rfl
@[simp] theorem stageLamp_pending (new : DriveState) (s : State) : (stageLamp new s).pending = s.pending := rfl
/-! ### The blocks a stage changes -/

theorem stageContactorOff_drive (old : DriveState) (s : State) : (stageContactorOff old s).drive =
    if old = .run then { s.drive with runOutput := false, rest := .resting 10 } else s.drive := by
  unfold stageContactorOff; split <;> rfl

theorem stageContactorOff_stride (old : DriveState) (s : State) : (stageContactorOff old s).stride =
    if old = .run then s.stride.switchOff s.config else s.stride := by
  unfold stageContactorOff; split <;> rfl

theorem stageDwell_drive (old new : DriveState) (s : State) : (stageDwell old new s).drive =
    if new = .dwell then { s.drive with direction := s.orders.direction,
                                        dwellTimer := some (10 * s.config.reversalDwell.toNat) }
    else if old = .dwell then { s.drive with dwellTimer := none } else s.drive := by
  unfold stageDwell; repeat' (first | rfl | split)

theorem stageDwell_governor (old new : DriveState) (s : State) : (stageDwell old new s).governor =
    if new = .dwell then { s.governor with window := [], lead := none, runRequest := false, lagMark := false }
    else s.governor := by
  unfold stageDwell; repeat' (first | rfl | split)

theorem stageLoop_halt (old new : DriveState) (s : State) : (stageLoop old new s).halt =
    if new = .offline ∨ new = .halted then { s.halt with loopClosed := false }
    else if new = .idle ∧ (old = .halted ∨ old = .offline) then { s.halt with loopClosed := true } else s.halt := by
  unfold stageLoop; repeat' (first | rfl | split)

theorem stageEmptying_holds (new : DriveState) (s : State) : (stageEmptying new s).holds =
    if new = .idle ∨ new = .halted ∨ new = .offline then { s.holds with records := Vector.replicate 32 none }
    else s.holds := by
  unfold stageEmptying; split <;> rfl

theorem stageEmptying_claim (new : DriveState) (s : State) : (stageEmptying new s).claim =
    if new = .idle ∨ new = .halted ∨ new = .offline then ClaimUnit.reset else s.claim := by
  unfold stageEmptying; split <;> rfl

theorem stageEmptying_line (new : DriveState) (s : State) : (stageEmptying new s).line =
    if new = .idle ∨ new = .halted ∨ new = .offline then
      { s.line with claimSlot := none, statusSlot := s.line.statusSlot || !s.claim.reasons.isEmpty }
    else s.line := by
  unfold stageEmptying; split <;> rfl

theorem stagePace_pace (new : DriveState) (s : State) : (stagePace new s).pace =
    if s.isPacer then { s.pace with running := decide (new = .wait ∨ new = .run) } else s.pace := by
  unfold stagePace; split <;> rfl

theorem stageContactorOn_drive (new : DriveState) (s : State) : (stageContactorOn new s).drive =
    if new = .run then { s.drive with runOutput := true } else s.drive := by
  unfold stageContactorOn; split <;> rfl

theorem stageContactorOn_stride (new : DriveState) (s : State) : (stageContactorOn new s).stride =
    if new = .run then s.stride.switchOn s.config else s.stride := by
  unfold stageContactorOn; split <;> rfl

theorem stageMuster_orders (old new : DriveState) (s : State) : (stageMuster old new s).orders =
    if new = .muster then
      { s.orders with musterTimer := some (10 * s.config.musterTime.toNat), counting := true }
    else if old = .muster then { s.orders with musterTimer := none, counting := false, blocker := none }
    else s.orders := by
  unfold stageMuster; repeat' (first | rfl | split)

theorem stageStatus_line (new : DriveState) (s : State) : (stageStatus new s).line =
    if new = .offline then s.line else { s.line with statusSlot := true } := by
  unfold stageStatus; split <;> rfl

theorem stageBlocks_stride (old new : DriveState) (s : State) :
    (stageBlocks old new s).stride = s.stride.atTransition old new := by
  unfold stageBlocks; dsimp only; split <;> rfl

theorem stageBlocks_sensor (old new : DriveState) (s : State) :
    (stageBlocks old new s).sensor = s.sensor.atTransition new := by
  unfold stageBlocks; dsimp only; split <;> rfl

theorem stageBlocks_line (old new : DriveState) (s : State) : (stageBlocks old new s).line =
    if new = .offline then s.line.silence else s.line := by
  unfold stageBlocks; dsimp only; split <;> rfl

theorem stageLamp_drive (new : DriveState) (s : State) :
    (stageLamp new s).drive = s.drive.setLamp new s.loader.offlineCause := rfl

end Sys2Proof.Machine
end

