-- ==== Sys2Proof/Laws/Transition.lean ====
section
/-! SUPPORT. What the transition of the drive state (R11) does to each block: one lemma a block. -/
namespace Sys2Proof.Machine

theorem State.isPacer_congr {s t : State} (h : t.loader = s.loader) : t.isPacer = s.isPacer :=
  decide_eq_decide.mpr (by rw [State.own, State.towers, State.config, h]; rfl)

/-! ### The blocks a transition leaves alone -/

section
variable (s : State) (new : DriveState)

@[simp] theorem State.transition_pending : (s.transition new).pending = s.pending := by simp [State.transition]
@[simp] theorem State.transition_resets : (s.transition new).resets = s.resets := by simp [State.transition]
@[simp] theorem State.transition_localTime : (s.transition new).localTime = s.localTime := by simp [State.transition]
@[simp] theorem State.transition_roster : (s.transition new).roster = s.roster := by simp [State.transition]
@[simp] theorem State.transition_loader : (s.transition new).loader = s.loader := by simp [State.transition]
@[simp] theorem State.transition_choices : (s.transition new).choices = s.choices := by simp [State.transition]

/-! ### The blocks it changes -/

theorem State.transition_governor : (s.transition new).governor =
    if new = .dwell then { s.governor with window := [], lead := none, runRequest := false, lagMark := false }
    else s.governor := by
  simp [State.transition, stageDwell_governor]

theorem State.transition_sensor : (s.transition new).sensor = s.sensor.atTransition new := by
  simp [State.transition, stageBlocks_sensor]

theorem State.transition_holds : (s.transition new).holds =
    if new = .idle ∨ new = .halted ∨ new = .offline then { s.holds with records := Vector.replicate 32 none }
    else s.holds := by
  simp [State.transition, stageEmptying_holds]

theorem State.transition_claim : (s.transition new).claim =
    if new = .idle ∨ new = .halted ∨ new = .offline then ClaimUnit.reset else s.claim := by
  simp [State.transition, stageEmptying_claim]

theorem State.transition_pace : (s.transition new).pace =
    if s.isPacer then { s.pace with running := decide (new = .wait ∨ new = .run) } else s.pace := by
  simp only [State.transition, stageLamp_pace, State.setDrive_pace, stageBlocks_pace, stageStatus_pace,
    stageMuster_pace, stageContactorOn_pace, stagePace_pace, stageEmptying_pace, stageLoop_pace, stageDwell_pace,
    stageContactorOff_pace]
  rw [State.isPacer_congr (s := s) (by simp)]

theorem State.transition_orders : (s.transition new).orders =
    if new = .muster then { s.orders with musterTimer := some (10 * s.config.musterTime.toNat), counting := true }
    else if s.drive.state = .muster then { s.orders with musterTimer := none, counting := false, blocker := none }
    else s.orders := by
  simp [State.transition, stageMuster_orders, State.config]

theorem State.transition_halt : (s.transition new).halt =
    if new = .offline ∨ new = .halted then { s.halt with loopClosed := false }
    else if new = .idle ∧ (s.drive.state = .halted ∨ s.drive.state = .offline) then { s.halt with loopClosed := true }
    else s.halt := by
  simp [State.transition, stageLoop_halt]

/-- The drive part of a transition, field by field; the lamp is `DriveControl.setLamp`. -/
theorem State.transition_drive_state : (s.transition new).drive.state = new := by simp [State.transition]

@[simp] theorem DriveControl.setLamp_runOutput (d : DriveControl) x c : (d.setLamp x c).runOutput = d.runOutput := by
  cases x <;> cases c <;> rfl

@[simp] theorem DriveControl.setLamp_direction (d : DriveControl) x c : (d.setLamp x c).direction = d.direction := by
  cases x <;> cases c <;> rfl

@[simp] theorem DriveControl.setLamp_rest (d : DriveControl) x c : (d.setLamp x c).rest = d.rest := by
  cases x <;> cases c <;> rfl

@[simp] theorem DriveControl.setLamp_state (d : DriveControl) x c : (d.setLamp x c).state = d.state := by
  cases x <;> cases c <;> rfl

@[simp] theorem DriveControl.setLamp_dwellTimer (d : DriveControl) x c : (d.setLamp x c).dwellTimer = d.dwellTimer := by
  cases x <;> cases c <;> rfl

theorem State.transition_runOutput : (s.transition new).drive.runOutput =
    if new = .run then true else if s.drive.state = .run then false else s.drive.runOutput := by
  simp only [State.transition, stageLamp_drive, State.setDrive_drive, stageBlocks_drive, stageStatus_drive,
    stageMuster_drive, stageContactorOn_drive, stagePace_drive, stageEmptying_drive, stageLoop_drive,
    stageDwell_drive, stageContactorOff_drive, DriveControl.setLamp_runOutput]
  repeat' (first | rfl | contradiction | split)

theorem State.transition_direction : (s.transition new).drive.direction =
    if new = .dwell then s.orders.direction else s.drive.direction := by
  simp only [State.transition, stageLamp_drive, State.setDrive_drive, stageBlocks_drive, stageStatus_drive,
    stageMuster_drive, stageContactorOn_drive, stagePace_drive, stageEmptying_drive, stageLoop_drive,
    stageDwell_drive, stageContactorOff_drive, DriveControl.setLamp_direction, stageContactorOff_orders]
  repeat' (first | rfl | contradiction | split)

theorem State.transition_rest : (s.transition new).drive.rest =
    if s.drive.state = .run then .resting 10 else s.drive.rest := by
  simp only [State.transition, stageLamp_drive, State.setDrive_drive, stageBlocks_drive, stageStatus_drive,
    stageMuster_drive, stageContactorOn_drive, stagePace_drive, stageEmptying_drive, stageLoop_drive,
    stageDwell_drive, stageContactorOff_drive, DriveControl.setLamp_rest]
  repeat' (first | rfl | contradiction | split)

theorem State.transition_dwellTimer : (s.transition new).drive.dwellTimer =
    if new = .dwell then some (10 * s.config.reversalDwell.toNat)
    else if s.drive.state = .dwell then none else s.drive.dwellTimer := by
  simp only [State.transition, stageLamp_drive, State.setDrive_drive, stageBlocks_drive, stageStatus_drive,
    stageMuster_drive, stageContactorOn_drive, stagePace_drive, stageEmptying_drive, stageLoop_drive,
    stageDwell_drive, stageContactorOff_drive, DriveControl.setLamp_dwellTimer, State.config,
    stageContactorOff_loader]
  repeat' (first | rfl | contradiction | split)

/-- The Stride Monitor at a transition: the switch-off, the switch-on, then what follows the drive state. -/
theorem State.transition_stride : (s.transition new).stride =
    ((if new = .run then (if s.drive.state = .run then s.stride.switchOff s.config else s.stride).switchOn s.config
      else if s.drive.state = .run then s.stride.switchOff s.config else s.stride)).atTransition
        s.drive.state new := by
  simp [State.transition, stageBlocks_stride, stageContactorOn_stride, stageContactorOff_stride, State.config]

/-- The line at a transition. -/
theorem State.transition_line : (s.transition new).line =
    if new = .offline then
      { s.line with claimSlot := none, statusSlot := s.line.statusSlot || !s.claim.reasons.isEmpty }.silence
    else if new = .idle ∨ new = .halted then { s.line with claimSlot := none, statusSlot := true }
    else { s.line with statusSlot := true } := by
  simp only [State.transition, stageLamp_line, State.setDrive_line, stageBlocks_line, stageStatus_line,
    stageMuster_line, stageContactorOn_line, stagePace_line, stageEmptying_line, stageLoop_line, stageDwell_line,
    stageContactorOff_line, stageDwell_claim, stageLoop_claim, stageContactorOff_claim]
  cases new <;> simp

end

/-! ### The Stride Monitor and the Sensor Port as the state changes -/

theorem StrideMonitor.atTransition_contactorOn (m : StrideMonitor) (old new : DriveState) :
    (m.atTransition old new).contactorOn = m.contactorOn := by
  simp only [StrideMonitor.atTransition]; repeat' (first | rfl | split)

theorem StrideMonitor.atTransition_stallTimer (m : StrideMonitor) (old new : DriveState) :
    (m.atTransition old new).stallTimer = m.stallTimer := by
  simp only [StrideMonitor.atTransition]; repeat' (first | rfl | split)

theorem StrideMonitor.atTransition_retryPause (m : StrideMonitor) (old new : DriveState) :
    (m.atTransition old new).retryPause = if old = .stalled then none else m.retryPause := by
  simp only [StrideMonitor.atTransition]; repeat' (first | rfl | split)

/-- Two monitors agree on the stride count and the three drive counters (R57). -/
def StrideMonitor.SameCounts (m n : StrideMonitor) : Prop :=
  m.strideCount = n.strideCount ∧ m.runTime = n.runTime ∧ m.stallEvents = n.stallEvents
    ∧ m.creepPulses = n.creepPulses

theorem StrideMonitor.SameCounts.trans {a b c : StrideMonitor} (h : a.SameCounts b) (k : b.SameCounts c) :
    a.SameCounts c :=
  ⟨h.1.trans k.1, h.2.1.trans k.2.1, h.2.2.1.trans k.2.2.1, h.2.2.2.trans k.2.2.2⟩

theorem StrideMonitor.atTransition_counts (m : StrideMonitor) (old new : DriveState) :
    (m.atTransition old new).SameCounts m := by
  simp only [StrideMonitor.atTransition]; repeat' (first | exact ⟨rfl, rfl, rfl, rfl⟩ | split)

theorem StrideMonitor.switchOff_counts (m : StrideMonitor) c : (m.switchOff c).SameCounts m := by
  unfold StrideMonitor.switchOff; split <;> exact ⟨rfl, rfl, rfl, rfl⟩

/-- The stride count and the three drive counters: no transition changes them (R57). -/
theorem State.transition_counts (s : State) (new : DriveState) :
    (s.transition new).stride.SameCounts s.stride := by
  rw [State.transition_stride]
  refine (StrideMonitor.atTransition_counts _ _ _).trans ?_
  split
  · split
    · exact StrideMonitor.switchOff_counts _ _
    · exact ⟨rfl, rfl, rfl, rfl⟩
  · split
    · exact StrideMonitor.switchOff_counts _ _
    · exact ⟨rfl, rfl, rfl, rfl⟩

theorem State.transition_contactorOn (s : State) (new : DriveState) : (s.transition new).stride.contactorOn =
    if new = .run then true else if s.drive.state = .run then false else s.stride.contactorOn := by
  rw [State.transition_stride, StrideMonitor.atTransition_contactorOn]
  simp only [StrideMonitor.switchOn, StrideMonitor.switchOff]
  repeat' (first | rfl | split)

theorem State.transition_stallTimer (s : State) (new : DriveState) : (s.transition new).stride.stallTimer =
    if new = .run then (if s.config.stalling = .off then none else some (10 * s.config.stallTime.toNat))
    else if s.drive.state = .run then none else s.stride.stallTimer := by
  rw [State.transition_stride, StrideMonitor.atTransition_stallTimer]
  simp only [StrideMonitor.switchOn, StrideMonitor.switchOff]
  repeat' (first | rfl | split)

theorem State.transition_retryPause (s : State) (new : DriveState) : (s.transition new).stride.retryPause =
    if s.drive.state = .stalled then none else s.stride.retryPause := by
  rw [State.transition_stride, StrideMonitor.atTransition_retryPause]
  simp only [StrideMonitor.switchOn, StrideMonitor.switchOff]
  repeat' (first | rfl | contradiction | split)

/-- The exchange results are not touched by a transition (R54): the two failure counts stand. -/
theorem SensorPort.atTransition_counts (p : SensorPort) (new : DriveState) :
    (p.atTransition new).failureTotal = p.failureTotal
      ∧ (p.atTransition new).consecutiveFailures = p.consecutiveFailures := by
  simp only [SensorPort.atTransition]; constructor <;> repeat' (first | rfl | split)

end Sys2Proof.Machine
end

