-- ==== Sys2Proof/Laws/Drive.lean ====
section
/-! SUPPORT. The operations that change the drive state keep the standing facts of `DriveInv`: one lemma an operation. -/
namespace Sys2Proof.Machine

/-! ### What the run decision reads -/

/-- Two states agree on everything the run decision reads beside the drive state. -/
structure State.SameInputs (s t : State) : Prop where
  loader   : t.loader = s.loader
  latched  : t.halt.latched = s.halt.latched
  unset    : t.orders.unset = s.orders.unset
  action   : t.orders.action = s.orders.action
  counting : t.orders.counting = s.orders.counting
  state    : t.drive.state = s.drive.state
  output   : t.drive.runOutput = s.drive.runOutput
  rest     : t.drive.rest = .rested ↔ s.drive.rest = .rested
  dwell    : t.drive.dwellTimer = none ↔ s.drive.dwellTimer = none
  retry    : t.stride.retryPause = none ↔ s.stride.retryPause = none
  holds    : t.holds.isEmpty = s.holds.isEmpty
  pace     : t.pace.request = s.pace.request
  governor : t.governor.runRequest = s.governor.runRequest

theorem State.topTier_congr {s t : State} (hl : t.loader = s.loader) (hh : t.halt.latched = s.halt.latched)
    (hu : t.orders.unset = s.orders.unset) (ha : t.orders.action = s.orders.action) : t.topTier = s.topTier := by
  unfold State.topTier State.checksPassed; rw [hl, hh, hu, ha]

theorem HoldTable.isEmpty_congr {h k : HoldTable} (e : h.records = k.records) : h.isEmpty = k.isEmpty := by
  simp only [HoldTable.isEmpty, e]

/-- The common case: the whole of Drive Control and the retry pause are as before. -/
theorem State.SameInputs.of_drive {s t : State} (loader : t.loader = s.loader)
    (latched : t.halt.latched = s.halt.latched) (unset : t.orders.unset = s.orders.unset)
    (action : t.orders.action = s.orders.action) (counting : t.orders.counting = s.orders.counting)
    (drive : t.drive = s.drive) (retry : t.stride.retryPause = s.stride.retryPause)
    (holds : t.holds.isEmpty = s.holds.isEmpty) (pace : t.pace.request = s.pace.request)
    (governor : t.governor.runRequest = s.governor.runRequest) : s.SameInputs t where
  loader := loader
  latched := latched
  unset := unset
  action := action
  counting := counting
  state := by rw [drive]
  output := by rw [drive]
  rest := by rw [drive]
  dwell := by rw [drive]
  retry := by rw [retry]
  holds := holds
  pace := pace
  governor := governor

theorem State.SameInputs.topTier {s t : State} (h : s.SameInputs t) : t.topTier = s.topTier :=
  State.topTier_congr h.loader h.latched h.unset h.action

theorem State.SameInputs.movingTier {s t : State} (h : s.SameInputs t) : t.movingTier = s.movingTier := by
  unfold State.movingTier State.runRequest
  rw [State.isPacer_congr h.loader, h.holds, h.pace, h.governor]
  exact if_congr Iff.rfl rfl (if_congr (and_congr Iff.rfl h.rest) rfl rfl)

theorem State.SameInputs.settledState {s t : State} (h : s.SameInputs t) : t.settledState = s.settledState := by
  unfold State.settledState
  rw [h.topTier, h.movingTier, h.state, h.counting]
  cases s.topTier with
  | some _ => rfl
  | none =>
    exact if_congr (and_congr Iff.rfl (not_congr h.dwell)) rfl
      (if_congr Iff.rfl rfl (if_congr (and_congr Iff.rfl (not_congr h.retry)) rfl rfl))

theorem State.SameInputs.settled {s t : State} (h : s.SameInputs t) (k : s.Settled) : t.Settled := by
  unfold State.Settled at k ⊢; rw [h.settledState, h.state]; exact k

/-- A set of the records that holds none is empty. -/
@[simp] theorem HoldTable.isEmpty_replicate (h : HoldTable) :
    HoldTable.isEmpty { h with records := Vector.replicate 32 none } = true := by
  simp [HoldTable.isEmpty]

/-! ### The facts without the run decision -/

/-- The standing facts that a transition needs before it: `DriveInv` without the decision and the silence. -/
structure State.Base (s : State) : Prop where
  contactor : s.ContactorOk
  loop      : s.LoopOk
  stall     : s.StallTimerOk
  startUp   : s.StartUpOk

theorem State.DriveInv.base {s : State} (h : s.DriveInv) : s.Base := ⟨h.contactor, h.loop, h.stall, h.startUp⟩

/-- The facts do not read the parts that differ. -/
theorem State.Base.congr {s t : State} (h : s.Base) (hd : t.drive.state = s.drive.state)
    (hr : t.drive.runOutput = s.drive.runOutput) (hc : t.stride.contactorOn = s.stride.contactorOn)
    (hs : t.stride.stallTimer ≠ none → s.stride.stallTimer ≠ none) (hl : t.halt.loopClosed = s.halt.loopClosed)
    (hp : t.loader = s.loader) (hz : t.resets = s.resets)
    (he : t.loader.state ≠ .passed → t.orders.unset = s.orders.unset ∧ t.halt.latched = s.halt.latched) : t.Base := by
  refine ⟨?_, ?_, ?_, ?_⟩
  · have := h.contactor; unfold State.ContactorOk at *; rw [hr, hd, hc]; exact this
  · have := h.loop; unfold State.LoopOk at *; rw [hl, hd]; exact this
  · intro k; rw [hd]; exact h.stall (hs k)
  · refine ⟨?_, ?_, ?_⟩
    · intro k; obtain ⟨a, b⟩ := he k; rw [a, b]; rw [hp] at k; exact h.startUp.early k
    · rw [hp]; exact h.startUp.reading
    · intro k; rw [hp]; apply h.startUp.resets; simpa only [State.inReset, hz] using k

theorem State.Settled.offline_topTier {s : State} (h : s.Settled) (k : s.drive.state = .offline) :
    s.topTier = some .offline := by
  unfold State.Settled State.settledState at h
  rw [k] at h
  cases ht : s.topTier with
  | some d => rw [ht] at h; simpa using h
  | none =>
    rw [ht] at h; simp only [State.movingTier] at h
    simp at h; split_ifs at h

theorem State.Settled.halted_topTier {s : State} (h : s.Settled) (k : s.drive.state = .halted) :
    s.topTier = some .halted := by
  unfold State.Settled State.settledState at h
  rw [k] at h
  cases ht : s.topTier with
  | some d => rw [ht] at h; simpa using h
  | none =>
    rw [ht] at h; simp only [State.movingTier] at h
    simp at h; split_ifs at h

theorem State.Settled.topTier_none {s : State} (h : s.Settled) (k : s.drive.state ≠ .offline)
    (k' : s.drive.state ≠ .halted) (k'' : s.drive.state ≠ .idle) : s.topTier = none := by
  unfold State.Settled State.settledState at h
  cases ht : s.topTier with
  | none => rfl
  | some d =>
    rw [ht] at h; simp only at h
    unfold State.topTier at ht
    split_ifs at ht <;> simp_all

/-- Tier 1 does not hold of a settled station that is not OFFLINE. -/
theorem State.Settled.checked {s : State} (h : s.Settled) (k : s.drive.state ≠ .offline) :
    s.loader.state = .passed ∧ s.loader.offlineCause = none := by
  by_cases h1 : s.checksPassed = false ∨ s.loader.offlineCause ≠ none
  · refine absurd ?_ k
    rw [← h]; unfold State.settledState State.topTier; rw [if_pos h1]
  · rw [not_or, not_not] at h1
    exact ⟨by simpa [State.checksPassed] using h1.1, h1.2⟩

/-! ### A transition -/

/-- Leaving OFFLINE or HALTED leads to IDLE, OFFLINE or HALTED. -/
def State.LeavesWell (s : State) (new : DriveState) : Prop :=
  s.drive.state = .offline ∨ s.drive.state = .halted → new = .idle ∨ new = .offline ∨ new = .halted

theorem State.transition_base {s : State} (h : s.Base) (new : DriveState) (hn : s.LeavesWell new) :
    (s.transition new).Base := by
  obtain ⟨⟨hc1, hc2⟩, hl, hs, hu⟩ := h
  refine ⟨⟨?_, ?_⟩, ?_, ?_, ?_⟩
  · rw [State.transition_runOutput, State.transition_drive_state, hc1]; split_ifs <;> simp_all
  · rw [State.transition_runOutput, State.transition_contactorOn, hc2]
  · unfold State.LoopOk State.LeavesWell at *
    rw [State.transition_halt, State.transition_drive_state]
    split_ifs with h1 h2
    · rcases h1 with rfl | rfl <;> simp
    · obtain ⟨rfl, -⟩ := h2; simp
    · rw [hl]
      by_cases hx : s.drive.state = .offline ∨ s.drive.state = .halted
      · rcases hn hx with rfl | rfl | rfl
        · rcases hx with k | k <;> simp_all
        · simp at h1
        · simp at h1
      · simp only [not_or] at h1 hx; simp [h1, hx]
  · intro k
    rw [State.transition_stallTimer] at k; rw [State.transition_drive_state]
    split_ifs at k with h1 h2 h3
    · exact absurd rfl k
    · exact h1
    · exact absurd rfl k
    · exact absurd (hs k) h3
  · refine ⟨?_, ?_, ?_⟩
    · intro k
      rw [State.transition_loader] at k
      obtain ⟨a, b⟩ := hu.early k
      rw [State.transition_orders, State.transition_halt]
      constructor
      · split_ifs <;> exact a
      · split_ifs <;> exact b
    · rw [State.transition_loader]; exact hu.reading
    · intro k; rw [State.transition_loader]; apply hu.resets
      simpa only [State.inReset, State.transition_resets] using k

/-- After a transition the station is silent if it is OFFLINE (R158). -/
theorem State.transition_silent (s : State) (new : DriveState) : (s.transition new).SilentOk := by
  intro k
  rw [State.transition_drive_state] at k
  rw [State.transition_line, if_pos k]
  simp only [SpanLine.silence, SpanLine.release, SpanLine.changeSendLine]
  split <;> simp

theorem State.transition_topTier (s : State) (new : DriveState) : (s.transition new).topTier = s.topTier := by
  refine State.topTier_congr (State.transition_loader s new) ?_ ?_ ?_
  · rw [State.transition_halt]; split_ifs <;> rfl
  · rw [State.transition_orders]; split_ifs <;> rfl
  · rw [State.transition_orders]; split_ifs <;> rfl

theorem State.transition_pace_request (s : State) (new : DriveState) :
    (s.transition new).pace.request = s.pace.request := by
  rw [State.transition_pace]; split <;> rfl

/-- The settled state is one that the table gives, and tiers 7 to 9 give nothing else. -/
theorem State.movingTier_cases (s : State) : s.movingTier = .held ∨ s.movingTier = .run ∨ s.movingTier = .wait := by
  unfold State.movingTier; split_ifs <;> simp

theorem State.topTier_cases (s : State) : s.topTier = none ∨ s.topTier = some .offline ∨ s.topTier = some .halted
    ∨ s.topTier = some .idle := by
  unfold State.topTier; split_ifs <;> simp

/-- The transition to the settled state leaves the station settled. -/
theorem State.transition_settled {s : State} (h : s.settledState ≠ s.drive.state) :
    (s.transition s.settledState).Settled := by
  unfold State.Settled
  rw [State.transition_drive_state]
  cases ht : s.topTier with
  | some d =>
    have e : s.settledState = d := by unfold State.settledState; rw [ht]
    rw [e]; unfold State.settledState; rw [State.transition_topTier, ht]
  | none =>
    have e : s.settledState = s.movingTier := by
      unfold State.settledState at h ⊢
      rw [ht] at h ⊢
      simp only at h ⊢
      split_ifs at h ⊢ with h1 h2 h3
      · exact absurd h1.1.symm h
      · exact absurd h2.1.symm h
      · exact absurd h3.1.symm h
      · rfl
    have hne : s.movingTier ≠ s.drive.state := e ▸ h
    rw [e]
    have ht' : (s.transition s.movingTier).topTier = none := by rw [State.transition_topTier, ht]
    have hm := s.movingTier_cases
    have hx : (s.transition s.movingTier).movingTier = s.movingTier := by
      have hr : (s.transition s.movingTier).runRequest = s.runRequest := by
        simp only [State.runRequest, State.isPacer_congr (State.transition_loader s _),
          State.transition_pace_request, State.transition_governor]
        rcases hm with k | k | k <;> simp [k]
      have hh : (s.transition s.movingTier).holds = s.holds := by
        rw [State.transition_holds]; rcases hm with k | k | k <;> simp [k]
      generalize hd : s.movingTier = d at *
      unfold State.movingTier
      rw [hr, hh, State.transition_rest, ← hd]
      rw [← hd] at hne
      unfold State.movingTier at hne ⊢
      split_ifs at hne ⊢ <;> simp_all
    unfold State.settledState
    rw [ht', State.transition_drive_state]
    simp only
    rcases hm with k | k | k <;> rw [k] at hx ⊢ <;> simpa using hx

/-! ### Changes outside the decision -/

/-- A change of a part that the standing facts do not read keeps them. -/
theorem State.DriveInv.of_same {s t : State} (h : s.DriveInv) (i : s.SameInputs t)
    (hc : t.stride.contactorOn = s.stride.contactorOn)
    (hs : t.stride.stallTimer ≠ none → s.stride.stallTimer ≠ none) (hl : t.halt.loopClosed = s.halt.loopClosed)
    (hz : t.resets = s.resets) (hq : t.SilentOk) : t.DriveInv := by
  have b : t.Base := h.base.congr i.state i.output hc hs hl i.loader hz
    (fun _ => ⟨i.unset, i.latched⟩)
  exact ⟨i.settled h.settled, b.contactor, b.loop, b.stall, b.startUp, hq⟩

/-- A station that is not OFFLINE is silent in the sense of R158. -/
theorem State.SilentOk.of_ne {s : State} (h : s.drive.state ≠ .offline) : s.SilentOk := fun k => absurd k h

/-- A report of a claim reason: the claim and the line alone. -/
theorem State.reportReason_eq (s : State) (r : ClaimReason) (p : Bool) :
    s.reportReason r p = s ∨ ∃ c x, s.reportReason r p = (s.setClaim c).setLine x := by
  unfold State.reportReason; dsimp only
  split
  · exact .inl rfl
  · exact .inr ⟨_, _, rfl⟩

theorem State.SameInputs.setClaimLine (s : State) c x : s.SameInputs ((s.setClaim c).setLine x) :=
  .of_drive rfl rfl rfl rfl rfl rfl rfl rfl rfl rfl

theorem State.SameInputs.setLine (s : State) x : s.SameInputs (s.setLine x) :=
  .of_drive rfl rfl rfl rfl rfl rfl rfl rfl rfl rfl

/-- Outside OFFLINE the line may change freely. -/
theorem State.DriveInv.setLine {s : State} (h : s.DriveInv) (k : s.drive.state ≠ .offline) (x : SpanLine) :
    (s.setLine x).DriveInv :=
  h.of_same (.setLine s x) rfl id rfl rfl (.of_ne k)

theorem State.DriveInv.reportReason {s : State} (h : s.DriveInv) (k : s.drive.state ≠ .offline) r p :
    (s.reportReason r p).DriveInv := by
  rcases s.reportReason_eq r p with e | ⟨c, x, e⟩
  all_goals rw [e]
  · exact h
  · exact h.of_same (.setClaimLine s c x) rfl id rfl rfl (.of_ne k)

@[simp] theorem State.reportReason_drive (s : State) r p : (s.reportReason r p).drive = s.drive := by
  rcases s.reportReason_eq r p with e | ⟨c, x, e⟩ <;> rw [e] <;> rfl

/-! ### Latching a halt -/

theorem State.trimForHalt_eq (s : State) (c : HaltCause) : ∃ x, s.trimForHalt c = s.setLine x := by
  unfold State.trimForHalt; split <;> exact ⟨_, rfl⟩

@[simp] theorem State.enterHalted_state (s : State) c o : (s.enterHalted c o).drive.state = .halted := by
  obtain ⟨x, e⟩ := ((s.setHalt { s.halt with latched := true, record := s.haltRecordFor c o }).transition
    .halted).trimForHalt_eq c
  show (State.trimForHalt _ c).drive.state = _
  rw [e]; exact State.transition_drive_state _ _

/-- Entry to HALTED keeps the standing facts, from a station whose checks have passed and that has no conflict. -/
theorem State.enterHalted_inv {s : State} (h : s.Base) (hp : s.loader.state = .passed)
    (hc : s.loader.offlineCause = none) (c : HaltCause) (o : Option Position) : (s.enterHalted c o).DriveInv := by
  let u := s.setHalt { s.halt with latched := true, record := s.haltRecordFor c o }
  obtain ⟨x, e⟩ := (u.transition .halted).trimForHalt_eq c
  have hu : u.Base := h.congr rfl rfl rfl id rfl rfl rfl (fun k => absurd hp k)
  have b := State.transition_base hu .halted (fun _ => .inr (.inr rfl))
  have i := State.SameInputs.setLine (u.transition .halted) x
  have hd : (u.transition .halted).drive.state = .halted := State.transition_drive_state _ _
  have ht : (u.transition .halted).Settled := by
    unfold State.Settled State.settledState
    rw [State.transition_topTier, hd]
    have : u.topTier = some .halted := by
      unfold State.topTier State.checksPassed
      rw [if_neg (by simp [u, hp, hc]), if_pos (by rfl)]
    rw [this]
  have hI : (u.transition .halted).DriveInv :=
    ⟨ht, b.contactor, b.loop, b.stall, b.startUp, State.transition_silent _ _⟩
  show (State.trimForHalt (u.transition .halted) c).DriveInv
  rw [e]
  exact hI.setLine (by rw [hd]; decide) x

/-- The states in which a cause latches a halt exclude OFFLINE and HALTED (Table 9-2). -/
theorem HaltCause.latchesIn_ne {c : HaltCause} {d : DriveState} (h : c.latchesIn d = true) :
    d ≠ .offline ∧ d ≠ .halted := by
  revert h; cases c <;> cases d <;> decide

/-- Table 9-2 at one station: a cause taken in HALTED adds to the record, one that latches halts the station, and any
other leaves the state as it is. -/
theorem State.raiseHalt_cases (s : State) (c : HaltCause) (o : Option Position) :
    (s.drive.state = .halted ∧ s.raiseHalt c o = s.setHalt { s.halt with record := s.halt.record.addLater c })
      ∨ (c.latchesIn s.drive.state = true ∧ s.raiseHalt c o = s.enterHalted c o)
      ∨ (s.drive.state ≠ .halted ∧ c.latchesIn s.drive.state = false ∧ s.raiseHalt c o = s) := by
  unfold State.raiseHalt
  split
  · exact .inl ⟨‹_›, rfl⟩
  · split
    · exact .inr (.inl ⟨‹_›, rfl⟩)
    · rename_i a b; exact .inr (.inr ⟨a, by simpa using b, rfl⟩)

theorem State.DriveInv.setRecord {s : State} (h : s.DriveInv) (r : HaltRecord) :
    (s.setHalt { s.halt with record := r }).DriveInv :=
  h.of_same (.of_drive rfl rfl rfl rfl rfl rfl rfl rfl rfl rfl) rfl id rfl rfl h.silent

theorem State.DriveInv.raiseHalt {s : State} (h : s.DriveInv) c o : (s.raiseHalt c o).DriveInv := by
  rcases s.raiseHalt_cases c o with ⟨-, e⟩ | ⟨k, e⟩ | ⟨-, -, e⟩ <;> rw [e]
  · exact h.setRecord _
  · obtain ⟨hp, hc⟩ := h.settled.checked (HaltCause.latchesIn_ne k).1
    exact State.enterHalted_inv h.base hp hc c o
  · exact h

/-! ### The run decision -/

theorem State.DriveInv.followingEntry {s : State} (h : s.DriveInv) : s.followingEntry.DriveInv := by
  unfold State.followingEntry
  split
  · rename_i k
    have k' : s.drive.state ≠ .offline := by
      intro e; rw [State.isFollowing, e] at k; exact absurd k (by decide)
    have h' := h.reportReason k' .lag (s.governor.lagMark && s.isFollowing && !s.isPacer)
    show (if (State.reportLag s).misaligned = true then _ else _ : State).DriveInv
    split
    · exact h'.raiseHalt _ _
    · exact h'
  · exact h

/-- The entry to OFFLINE or HALTED leaves only by tiers 1 to 3. -/
theorem State.leavesWell_settled {s : State}
    (h : s.drive.state = .offline ∨ s.drive.state = .halted → s.topTier ≠ none) : s.LeavesWell s.settledState := by
  intro k
  have := h k
  unfold State.settledState
  rcases s.topTier_cases with e | e | e | e <;> rw [e]
  · exact absurd e this
  · exact .inr (.inl rfl)
  · exact .inr (.inr rfl)
  · exact .inl rfl

/-- Settling keeps the standing facts, and establishes the decision (R7, R8). -/
theorem State.settle_inv {s : State} (h : s.Base)
    (ht : s.drive.state = .offline ∨ s.drive.state = .halted → s.topTier ≠ none)
    (hq : s.settledState = s.drive.state → s.SilentOk) : s.settle.DriveInv := by
  unfold State.settle
  split
  · rename_i k; exact ⟨k, h.contactor, h.loop, h.stall, h.startUp, hq k⟩
  · rename_i k
    have b := State.transition_base h _ (State.leavesWell_settled ht)
    exact State.DriveInv.followingEntry
      ⟨State.transition_settled k, b.contactor, b.loop, b.stall, b.startUp, State.transition_silent _ _⟩

/-- What a station in OFFLINE or HALTED settles by. -/
theorem State.Settled.topTier_ne {s : State} (h : s.Settled) :
    s.drive.state = .offline ∨ s.drive.state = .halted → s.topTier ≠ none := by
  rintro (k | k)
  · rw [h.offline_topTier k]; simp
  · rw [h.halted_topTier k]; simp

/-- Settling after a change of what tiers 4 to 9 read. -/
theorem State.DriveInv.settle_of {s t : State} (h : s.DriveInv) (hl : t.loader = s.loader) (hz : t.resets = s.resets)
    (hh : t.halt = s.halt) (hu : t.orders.unset = s.orders.unset) (ha : t.orders.action = s.orders.action)
    (hd : t.drive.state = s.drive.state) (ho : t.drive.runOutput = s.drive.runOutput)
    (hc : t.stride.contactorOn = s.stride.contactorOn)
    (hs : t.stride.stallTimer ≠ none → s.stride.stallTimer ≠ none)
    (hx : s.drive.state = .offline → t.line = s.line) : t.settle.DriveInv := by
  refine State.settle_inv (h.base.congr hd ho hc hs (by rw [hh]) hl hz (fun _ => ⟨hu, by rw [hh]⟩)) ?_ ?_
  · rw [hd, State.topTier_congr hl (by rw [hh]) hu ha]; exact h.settled.topTier_ne
  · intro _ k; rw [hd] at k; rw [hx k]; exact h.silent k

end Sys2Proof.Machine
end

