-- ==== Sys2Proof/Laws/Quiet.lean ====
section
/-! SUPPORT. What the decision operations leave alone, proved once for any relation of two states that the elementary
updates keep, and the relations it is used for. -/
namespace Sys2Proof.Machine

/-! ### The lines under the decision operations -/

/-- What a line keeps through every decision: its counters, its state and its quiet timer (R151, R161). -/
structure LineState.Same (x y : LineState) : Prop where
  counters : y.counters = x.counters
  alive    : y.alive = x.alive
  quiet    : y.quietTimer = x.quietTimer

theorem LineState.Same.refl (x : LineState) : x.Same x := ⟨rfl, rfl, rfl⟩

theorem LineState.Same.discard (x : LineState) : x.Same x.discardCollection := by
  unfold LineState.discardCollection; split <;> exact ⟨rfl, rfl, rfl⟩

/-- Both lines keep that. -/
structure SpanLine.SameLines (x y : SpanLine) : Prop where
  a : x.lineA.Same y.lineA
  b : x.lineB.Same y.lineB

theorem SpanLine.SameLines.refl (x : SpanLine) : x.SameLines x := ⟨.refl _, .refl _⟩

theorem SpanLine.release_lines (x : SpanLine) : x.release.lineA = x.lineA ∧ x.release.lineB = x.lineB := by
  unfold SpanLine.release; dsimp only; split <;> exact ⟨rfl, rfl⟩

theorem SpanLine.returnAbandoned_lines (x : SpanLine) f :
    (x.returnAbandoned f).lineA = x.lineA ∧ (x.returnAbandoned f).lineB = x.lineB := by
  unfold SpanLine.returnAbandoned; split <;> exact ⟨rfl, rfl⟩

theorem SpanLine.SameLines.release (x : SpanLine) : x.SameLines x.release := by
  constructor
  · rw [x.release_lines.1]; exact .refl _
  · rw [x.release_lines.2]; exact .refl _

theorem SpanLine.SameLines.silence (x : SpanLine) : x.SameLines x.silence :=
  ⟨(SpanLine.SameLines.release x).a, (SpanLine.SameLines.release x).b⟩

theorem SpanLine.SameLines.beginSeize (x : SpanLine) : x.SameLines x.beginSeize := by
  unfold SpanLine.beginSeize
  split
  · exact .refl x
  · rename_i f _
    dsimp only
    constructor
    · rw [((x.returnAbandoned f).release_lines).1, (x.returnAbandoned_lines f).1]; exact .discard _
    · rw [((x.returnAbandoned f).release_lines).2, (x.returnAbandoned_lines f).2]; exact .discard _
  · exact ⟨.discard _, .discard _⟩

theorem SpanLine.SameLines.abandon (x : SpanLine) : x.SameLines x.abandonClaimFrame := by
  unfold SpanLine.abandonClaimFrame
  split
  · split
    · exact .release x
    · exact .refl x
    · exact .refl x
  · exact .refl x
  · exact .refl x

theorem State.transition_sameLines (s : State) (d : DriveState) : s.line.SameLines (s.transition d).line := by
  rw [State.transition_line]
  split
  · have h := SpanLine.SameLines.silence
      { s.line with claimSlot := none, statusSlot := s.line.statusSlot || !s.claim.reasons.isEmpty }
    exact ⟨h.a, h.b⟩
  · split <;> exact ⟨.refl _, .refl _⟩

/-- A preorder on states that the elementary updates of the decision operations keep: halts, claims, the line, the pace
period, the census, and every transition but the entry to DWELL and an entry to OFFLINE that tier 1 does not give. -/
structure Quiet (R : State → State → Prop) : Prop where
  refl       : ∀ s, R s s
  trans      : ∀ {a b c}, R a b → R b c → R a c
  halt       : ∀ s x, R s (s.setHalt x)
  claim      : ∀ s r p, (s.isPacer = true → p = false) →
    R s (s.setClaim { s.claim with reasons := s.claim.reasons.put r p, reach := s.reachOf (s.claim.reasons.put r p) })
  emptied    : ∀ s, R s (s.setClaim ClaimUnit.reset)
  line       : ∀ s x, s.line.SameLines x → R s (s.setLine x)
  pace       : ∀ s x, x.running = s.pace.running → (s.isPacer = false → s.pace.running = false → x = s.pace) →
    R s (s.setPace x)
  choices    : ∀ s x, R s (s.setChoices x)
  census     : ∀ s t c b, (c = true → s.orders.counting = true) → (t ≠ none → s.orders.musterTimer ≠ none) →
    R s (s.setOrders { s.orders with musterTimer := t, counting := c, blocker := b })
  transition : ∀ s d, d ≠ .dwell → (d = .offline → s.loader.state ≠ .passed ∨ s.loader.offlineCause ≠ none) →
    R s (s.transition d)

namespace Quiet

section
variable {R : State → State → Prop} (q : Quiet R) (s : State)
include q

theorem reportReason r p (h : s.isPacer = true → p = false) : R s (s.reportReason r p) := by
  unfold State.reportReason; dsimp only
  split
  · exact q.refl s
  · exact q.trans (q.claim s r p h) (q.line _ _ ⟨.refl _, .refl _⟩)

theorem reportLag : R s s.reportLag := q.reportReason s _ _ (fun h => by simp [h])

theorem reportStall : R s s.reportStall := q.reportReason s _ _ (fun h => by simp [h])

theorem reportSensor : R s s.reportSensor := q.reportReason s _ _ (fun h => by simp [h])

theorem enterHalted c o : R s (s.enterHalted c o) := by
  let u := s.setHalt { s.halt with latched := true, record := s.haltRecordFor c o }
  have h : R s (u.transition .halted) := q.trans (q.halt s _) (q.transition u .halted (by decide) (fun e => nomatch e))
  refine q.trans h (?_ : R (u.transition .halted) ((u.transition .halted).trimForHalt c))
  unfold State.trimForHalt
  split
  · exact q.line _ _ (.beginSeize _)
  · exact q.line _ _ (.abandon _)

theorem raiseHalt c o : R s (s.raiseHalt c o) := by
  rcases s.raiseHalt_cases c o with ⟨-, e⟩ | ⟨-, e⟩ | ⟨-, -, e⟩
  · rw [e]; exact q.halt s _
  · rw [e]; exact q.enterHalted s c o
  · rw [e]; exact q.refl s

theorem followingEntry : R s s.followingEntry := by
  unfold State.followingEntry
  split
  · show R s (if (State.reportLag s).misaligned = true then _ else _)
    split
    · exact q.trans (q.reportLag s) (q.raiseHalt _ _ _)
    · exact q.reportLag s
  · exact q.refl s

omit q in
/-- Settling never enters DWELL: it only stays there. -/
theorem settledState_dwell (h : s.settledState = .dwell) : s.drive.state = .dwell := by
  unfold State.settledState State.movingTier at h
  rcases s.topTier_cases with e | e | e | e <;> rw [e] at h <;> simp at h
  split_ifs at h <;> simp_all

omit q in
/-- Settling enters OFFLINE by tier 1 alone. -/
theorem settledState_offline (h : s.settledState = .offline) :
    s.loader.state ≠ .passed ∨ s.loader.offlineCause ≠ none := by
  by_contra k
  rw [not_or, not_not, not_not] at k
  unfold State.settledState State.movingTier at h
  rcases s.topTier_cases with e | e | e | e <;> rw [e] at h <;> simp at h
  · split_ifs at h
  · unfold State.topTier at e
    split_ifs at e with h1
    · simp [State.checksPassed, k] at h1
    · cases e
    · cases e

theorem settle : R s s.settle := by
  unfold State.settle
  split
  · exact q.refl s
  · rename_i k
    exact q.trans (q.transition s _ (fun e => k (by rw [e, settledState_dwell s e])) (settledState_offline s))
      (q.followingEntry _)

theorem completeCensus : R s s.completeCensus := by
  unfold State.completeCensus; dsimp only
  refine q.trans (q.census s none false none (fun h => nomatch h) (fun h => absurd rfl h)) ?_
  split
  · rename_i p; exact q.trans (b := State.startPeriod _) (q.pace _ _ rfl (fun h => absurd (p.symm.trans h) (by decide)))
      (q.settle _)
  · exact q.settle _

theorem evaluateCensus : R s s.evaluateCensus := by
  unfold State.evaluateCensus
  split
  · split
    · exact q.census s s.orders.musterTimer s.orders.counting _ id id
    · exact q.completeCensus s
  · exact q.refl s

theorem enterMuster : R s s.enterMuster :=
  q.trans (q.transition s .muster (by decide) (fun e => nomatch e)) (q.evaluateCensus _)

theorem haltAfterWithdrawal c : R s (s.haltAfterWithdrawal c) := by
  unfold State.haltAfterWithdrawal; dsimp only
  split
  · exact q.trans (q.raiseHalt s _ _) (q.trans (q.halt _ _) (q.choices _ _))
  · exact q.raiseHalt s _ _

theorem misalignReports : R s s.misalignReports := by
  unfold State.misalignReports
  split
  · split
    · exact q.trans (q.choices s _) (q.settle _)
    · exact q.trans (q.choices s _) (q.raiseHalt _ _ _)
  · exact q.haltAfterWithdrawal s _

theorem leadReports g : R s (s.leadReports g) := by
  unfold State.leadReports
  split
  · exact q.misalignReports s
  · dsimp only
    have h : R s (if g.runRequest = s.governor.runRequest then s else s.settle).reportLag := by
      refine q.trans (b := if g.runRequest = s.governor.runRequest then s else s.settle) ?_ (q.reportLag _)
      split
      · exact q.refl s
      · exact q.settle s
    split
    · exact h
    · exact q.trans h (q.evaluateCensus _)

theorem emptyClaim : R s s.emptyClaim :=
  q.trans (q.emptied s) (q.line _ _ ⟨.refl _, .refl _⟩)

theorem requestStatus : R s s.requestStatus := q.line s _ ⟨.refl _, .refl _⟩

theorem reportReasons : R s s.reportReasons :=
  q.trans (q.trans (q.reportLag s) (q.reportStall _)) (q.reportSensor _)

theorem afterAdoption : R s s.afterAdoption := by
  unfold State.afterAdoption
  split
  · exact q.trans (q.requestStatus s) (q.evaluateCensus _)
  · split
    · exact q.reportReasons s
    · exact q.refl s

theorem decideClear : R s s.decideClear := by
  unfold State.decideClear
  split
  · exact q.refl s
  · exact q.halt s _

end

end Quiet

/-- A quiet relation that does not read the hold set. -/
structure Loose (R : State → State → Prop) : Prop extends Quiet R where
  holds : ∀ s x, R s (s.setHolds x)

namespace Loose

section
variable {R : State → State → Prop} (q : Loose R) (s : State)
include q

theorem writeHold p r : R s (s.writeHold p r) := by
  unfold State.writeHold; dsimp only
  split
  · exact q.trans (q.holds s _) (q.settle _)
  · exact q.holds s _

theorem removeHold p : R s (s.removeHold p) := by
  unfold State.removeHold
  split
  · exact q.refl s
  · dsimp only
    split
    · exact q.trans (q.holds s _) (q.settle _)
    · exact q.holds s _

theorem applyClaim p r n : R s (s.applyClaim p r n) := by
  unfold State.applyClaim; dsimp only
  split
  · exact q.writeHold s _ _
  · exact q.removeHold s _

end

end Loose

/-- A loose relation that the adoption of an order keeps too: it does not read the order in force, nor what the entry to
DWELL writes. -/
structure Loud (R : State → State → Prop) : Prop extends Loose R where
  orders : ∀ s x, R s (s.setOrders x)
  dwell  : ∀ s, R s (s.transition .dwell)

namespace Loud

section
variable {R : State → State → Prop} (q : Loud R) (s : State)
include q

theorem settleAdopted : R s s.settleAdopted := by
  unfold State.settleAdopted
  split
  · exact q.settle s
  · split
    · exact q.dwell s
    · split
      · exact q.enterMuster s
      · exact q.settle s

theorem writeOrder n a d p : R s (s.writeOrder n a d p) := by
  unfold State.writeOrder; dsimp only
  have h : R s (s.setOrders (s.orders.adopt n a d p)).emptyHolds.emptyClaim :=
    q.trans (q.trans (q.orders s _) (q.holds _ _)) (q.emptyClaim _)
  split
  · rename_i p; exact q.trans h (q.pace _ _ rfl (fun h => absurd (p.1.symm.trans h) (by decide)))
  · exact h

theorem adopt b n a d p : R s (s.adopt b n a d p) := by
  unfold State.adopt; dsimp only
  split
  · exact q.trans (q.trans (q.writeOrder s n a d p) (q.raiseHalt _ _ _)) (q.afterAdoption _)
  · refine q.trans (q.trans ?_ (q.settleAdopted _)) (q.afterAdoption _)
    split
    · exact q.trans (q.writeOrder s n a d p) (q.decideClear _)
    · exact q.writeOrder s n a d p

theorem refuseOrder : R s s.refuseOrder := q.orders s _

theorem takeOrder n a d p : R s (s.takeOrder n a d p) := by
  unfold State.takeOrder
  split
  · split
    · exact q.adopt s _ _ _ _ _
    · exact q.refuseOrder s
  · exact q.refuseOrder s
  · exact q.refuseOrder s

theorem catchUp n b : R s (s.catchUp n b) := by
  unfold State.catchUp
  split
  · exact q.refl s
  · split
    · split
      · exact q.adopt s _ _ _ _ _
      · exact q.refuseOrder s
      · exact q.refuseOrder s
    · exact q.refl s

end

end Loud

/-! ### The relations -/

theorem State.SameOuter.quiet : Quiet State.SameOuter where
  refl _ := ⟨rfl, rfl, rfl, rfl, rfl⟩
  trans h k := ⟨k.1.trans h.1, k.2.trans h.2, k.3.trans h.3, k.4.trans h.4, k.5.trans h.5⟩
  halt _ _ := ⟨rfl, rfl, rfl, rfl, rfl⟩
  claim _ _ _ _ := ⟨rfl, rfl, rfl, rfl, rfl⟩
  emptied _ := ⟨rfl, rfl, rfl, rfl, rfl⟩
  line _ _ _ := ⟨rfl, rfl, rfl, rfl, rfl⟩
  pace _ _ _ _ := ⟨rfl, rfl, rfl, rfl, rfl⟩
  choices _ _ := ⟨rfl, rfl, rfl, rfl, rfl⟩
  census _ _ _ _ _ _ := ⟨rfl, rfl, rfl, rfl, rfl⟩
  transition _ _ _ _ := ⟨by simp, by simp, by simp, by simp, by simp⟩

theorem State.SameOuter.loud : Loud State.SameOuter where
  toQuiet := State.SameOuter.quiet
  holds _ _ := ⟨rfl, rfl, rfl, rfl, rfl⟩
  orders _ _ := ⟨rfl, rfl, rfl, rfl, rfl⟩
  dwell _ := ⟨by simp, by simp, by simp, by simp, by simp⟩

theorem State.SameBend.quiet : Quiet State.SameBend where
  refl _ := ⟨rfl, rfl⟩
  trans h k := ⟨k.1.trans h.1, k.2.trans h.2⟩
  halt _ _ := ⟨rfl, rfl⟩
  claim _ _ _ _ := ⟨rfl, rfl⟩
  emptied _ := ⟨rfl, rfl⟩
  line _ _ _ := ⟨rfl, rfl⟩
  pace _ _ _ _ := ⟨rfl, rfl⟩
  choices _ _ := ⟨rfl, rfl⟩
  census _ _ _ _ _ _ := ⟨rfl, rfl⟩
  transition s d h _ := ⟨by rw [State.transition_governor, if_neg h], by rw [State.transition_direction, if_neg h]⟩

theorem State.SameBend.loose : Loose State.SameBend where
  toQuiet := State.SameBend.quiet
  holds _ _ := ⟨rfl, rfl⟩

theorem State.SameTallies.of {s t : State} (h : t.stride.SameCounts s.stride)
    (a : t.sensor.failureTotal = s.sensor.failureTotal)
    (b : t.sensor.consecutiveFailures = s.sensor.consecutiveFailures) : s.SameTallies t :=
  ⟨h.1, h.2.1, h.2.2.1, h.2.2.2, a, b⟩

theorem State.transition_tallies (s : State) (d : DriveState) : s.SameTallies (s.transition d) :=
  .of (State.transition_counts s d)
    (by rw [State.transition_sensor]; exact (SensorPort.atTransition_counts _ _).1)
    (by rw [State.transition_sensor]; exact (SensorPort.atTransition_counts _ _).2)

theorem State.SameTallies.quiet : Quiet State.SameTallies where
  refl _ := ⟨rfl, rfl, rfl, rfl, rfl, rfl⟩
  trans h k := ⟨k.1.trans h.1, k.2.trans h.2, k.3.trans h.3, k.4.trans h.4, k.5.trans h.5, k.6.trans h.6⟩
  halt _ _ := ⟨rfl, rfl, rfl, rfl, rfl, rfl⟩
  claim _ _ _ _ := ⟨rfl, rfl, rfl, rfl, rfl, rfl⟩
  emptied _ := ⟨rfl, rfl, rfl, rfl, rfl, rfl⟩
  line _ _ _ := ⟨rfl, rfl, rfl, rfl, rfl, rfl⟩
  pace _ _ _ _ := ⟨rfl, rfl, rfl, rfl, rfl, rfl⟩
  choices _ _ := ⟨rfl, rfl, rfl, rfl, rfl, rfl⟩
  census _ _ _ _ _ _ := ⟨rfl, rfl, rfl, rfl, rfl, rfl⟩
  transition s d _ _ := s.transition_tallies d

theorem State.SameTallies.loud : Loud State.SameTallies where
  toQuiet := State.SameTallies.quiet
  holds _ _ := ⟨rfl, rfl, rfl, rfl, rfl, rfl⟩
  orders _ _ := ⟨rfl, rfl, rfl, rfl, rfl, rfl⟩
  dwell s := s.transition_tallies .dwell

theorem State.SameOrders.quiet : Quiet State.SameOrders where
  refl _ := ⟨rfl, rfl, rfl, rfl, rfl, rfl⟩
  trans h k := ⟨k.1.trans h.1, k.2.trans h.2, k.3.trans h.3, k.4.trans h.4, k.5.trans h.5, k.6.trans h.6⟩
  halt _ _ := ⟨rfl, rfl, rfl, rfl, rfl, rfl⟩
  claim _ _ _ _ := ⟨rfl, rfl, rfl, rfl, rfl, rfl⟩
  emptied _ := ⟨rfl, rfl, rfl, rfl, rfl, rfl⟩
  line _ _ _ := ⟨rfl, rfl, rfl, rfl, rfl, rfl⟩
  pace _ _ _ _ := ⟨rfl, rfl, rfl, rfl, rfl, rfl⟩
  choices _ _ := ⟨rfl, rfl, rfl, rfl, rfl, rfl⟩
  census _ _ _ _ _ _ := ⟨rfl, rfl, rfl, rfl, rfl, rfl⟩
  transition s d _ _ := by
    have : (s.transition d).orders = _ := State.transition_orders s d
    constructor <;> rw [this] <;> split_ifs <;> rfl

theorem State.SameOrders.loose : Loose State.SameOrders where
  toQuiet := State.SameOrders.quiet
  holds _ _ := ⟨rfl, rfl, rfl, rfl, rfl, rfl⟩

/-- What each line keeps: its counters, its state, its quiet timer. -/
theorem State.sameLines_quiet : Quiet (fun s t : State => s.line.SameLines t.line) where
  refl _ := .refl _
  trans h k := ⟨⟨k.a.1.trans h.a.1, k.a.2.trans h.a.2, k.a.3.trans h.a.3⟩,
    ⟨k.b.1.trans h.b.1, k.b.2.trans h.b.2, k.b.3.trans h.b.3⟩⟩
  halt _ _ := .refl _
  claim _ _ _ _ := .refl _
  emptied _ := .refl _
  line _ _ h := h
  pace _ _ _ _ := .refl _
  choices _ _ := .refl _
  census _ _ _ _ _ _ := .refl _
  transition s d _ _ := s.transition_sameLines d

theorem State.sameLines_loud : Loud (fun s t : State => s.line.SameLines t.line) where
  toQuiet := State.sameLines_quiet
  holds _ _ := .refl _
  orders _ _ := .refl _
  dwell s := s.transition_sameLines .dwell

theorem State.SameLines.of {s t : State} (h : s.line.SameLines t.line) : s.SameLines t :=
  ⟨fun l => by cases l; exacts [h.a.counters, h.b.counters], fun l => by cases l; exacts [h.a.alive, h.b.alive],
    fun l => by cases l; exacts [h.a.quiet, h.b.quiet]⟩

/-! ### The hold set and the claim -/

/-- The hold set is kept or emptied, under the same order number and the same loader. -/
structure State.HoldsFrom (s t : State) : Prop where
  records : t.holds.records = s.holds.records ∨ t.holds.records = Vector.replicate 32 none
  unset   : t.orders.unset = s.orders.unset
  number  : t.orders.number = s.orders.number
  loader  : t.loader = s.loader
  resets  : t.resets = s.resets

theorem State.HoldsFrom.quiet : Quiet State.HoldsFrom where
  refl _ := ⟨.inl rfl, rfl, rfl, rfl, rfl⟩
  trans h k := ⟨by rcases k.1 with e | e
                   · rw [e]; exact h.1
                   · exact .inr e,
    k.2.trans h.2, k.3.trans h.3, k.4.trans h.4, k.5.trans h.5⟩
  halt _ _ := ⟨.inl rfl, rfl, rfl, rfl, rfl⟩
  claim _ _ _ _ := ⟨.inl rfl, rfl, rfl, rfl, rfl⟩
  emptied _ := ⟨.inl rfl, rfl, rfl, rfl, rfl⟩
  line _ _ _ := ⟨.inl rfl, rfl, rfl, rfl, rfl⟩
  pace _ _ _ _ := ⟨.inl rfl, rfl, rfl, rfl, rfl⟩
  choices _ _ := ⟨.inl rfl, rfl, rfl, rfl, rfl⟩
  census _ _ _ _ _ _ := ⟨.inl rfl, rfl, rfl, rfl, rfl⟩
  transition s d _ _ := by
    have e : (s.transition d).orders = _ := State.transition_orders s d
    refine ⟨?_, ?_, ?_, by simp, by simp⟩
    · rw [State.transition_holds]; split
      · exact .inr rfl
      · exact .inl rfl
    · rw [e]; split_ifs <;> rfl
    · rw [e]; split_ifs <;> rfl

/-- A hold set kept or emptied keeps its standing facts. -/
theorem State.HoldInv.of_from {s t : State} (h : s.HoldInv) (r : State.HoldsFrom s t) : t.HoldInv := by
  have ho : t.orderInForce = s.orderInForce := by unfold State.orderInForce; rw [r.unset, r.number]
  refine ⟨fun p x e => ?_, fun k => ?_, fun k => ?_⟩
  · rcases r.records with q | q
    · have := h.records p x (by rw [HoldTable.recordOf, ← q]; exact e)
      unfold State.HoldOk State.own at *
      rw [ho, r.loader]; exact this
    · exfalso
      have : t.holds.recordOf p = none := by simp [HoldTable.recordOf, q, Vector.get_eq_getElem]
      rw [this] at e; cases e
  · rw [r.loader] at k
    rcases r.records with q | q
    · rw [q]; exact h.early k
    · exact q
  · rw [r.loader]; apply h.resets; simpa only [State.inReset, r.resets] using k

theorem State.reachOf_congr {s t : State} (h : t.loader = s.loader) (r : ReasonSet) : t.reachOf r = s.reachOf r := by
  unfold State.reachOf State.towers State.own State.config; rw [h]

/-- The claim's standing facts read the claim, the loader and the reset lines alone. -/
theorem State.ClaimInv.congr {s t : State} (h : s.ClaimInv) (hc : t.claim.reasons = s.claim.reasons)
    (hr : t.claim.reach = s.claim.reach) (hl : t.loader = s.loader) (hz : t.resets = s.resets) : t.ClaimInv where
  reach := by rw [hc, hr, State.reachOf_congr hl]; exact h.reach
  pacer := by rw [hc, State.isPacer_congr hl]; exact h.pacer
  early := by rw [hc, hl]; exact h.early
  place := by have := h.place; unfold State.own State.towers State.config at *; rw [hl]; exact this
  resets := by rw [hl]; intro k; apply h.resets; simpa only [State.inReset, hz] using k

theorem State.reachOf_empty (s : State) : s.reachOf ReasonSet.empty = 0 := rfl

/-- An emptied claim is in order. -/
theorem State.ClaimInv.of_empty {s t : State} (h : s.ClaimInv) (hc : t.claim = ClaimUnit.reset)
    (hl : t.loader = s.loader) (hz : t.resets = s.resets) : t.ClaimInv where
  reach := by rw [hc]; rfl
  pacer _ := by rw [hc]; rfl
  early _ := by rw [hc]; rfl
  place := by have := h.place; unfold State.own State.towers State.config at *; rw [hl]; exact this
  resets := by rw [hl]; intro k; apply h.resets; simpa only [State.inReset, hz] using k

@[simp] theorem ReasonSet.put_empty (r : ClaimReason) : ReasonSet.empty.put r false = ReasonSet.empty := by
  cases r <;> rfl

/-- A claim in order and a station past its checks stay so. -/
def State.ClaimsWell (s t : State) : Prop :=
  s.ClaimInv ∧ s.loader.state = .passed → t.ClaimInv ∧ t.loader.state = .passed

theorem State.ClaimsWell.loud : Loud State.ClaimsWell where
  refl _ h := h
  trans h k x := k (h x)
  halt _ _ h := ⟨h.1.congr rfl rfl rfl rfl, h.2⟩
  claim s r p q h := ⟨{
      reach := rfl
      pacer := fun k => by
        show s.claim.reasons.put r p = _
        rw [q k, h.1.pacer k, ReasonSet.put_empty]
      early := fun k => absurd h.2 k
      place := h.1.place
      resets := h.1.resets }, h.2⟩
  emptied s h := ⟨h.1.of_empty rfl rfl rfl, h.2⟩
  line _ _ _ h := ⟨h.1.congr rfl rfl rfl rfl, h.2⟩
  pace _ _ _ _ h := ⟨h.1.congr rfl rfl rfl rfl, h.2⟩
  choices _ _ h := ⟨h.1.congr rfl rfl rfl rfl, h.2⟩
  census _ _ _ _ _ _ h := ⟨h.1.congr rfl rfl rfl rfl, h.2⟩
  holds _ _ h := ⟨h.1.congr rfl rfl rfl rfl, h.2⟩
  orders _ _ h := ⟨h.1.congr rfl rfl rfl rfl, h.2⟩
  transition s d _ _ h := by
    refine ⟨?_, by rw [State.transition_loader]; exact h.2⟩
    by_cases k : d = .idle ∨ d = .halted ∨ d = .offline
    · exact h.1.of_empty (by rw [State.transition_claim, if_pos k]) (by simp) (by simp)
    · exact h.1.congr (by rw [State.transition_claim, if_neg k]) (by rw [State.transition_claim, if_neg k])
        (by simp) (by simp)
  dwell s h :=
    ⟨h.1.congr (by rw [State.transition_claim]; rfl) (by rw [State.transition_claim]; rfl) (by simp) (by simp),
      by rw [State.transition_loader]; exact h.2⟩

end Sys2Proof.Machine
end

