-- ==== Sys2Proof/Laws/Records.lean ====
section
/-! SUPPORT. Reading the hold set and the roster after one place of them is written. -/
namespace Sys2Proof.Machine

theorem placeOf_inj {p q : Position} : placeOf p = placeOf q ↔ p = q := by
  simp [placeOf, Fin.ext_iff, BitVec.toNat_inj]

/-- Every place of the 32 is that of a position. -/
theorem exists_placeOf (i : Fin 32) : ∃ p : Position, placeOf p = i :=
  ⟨BitVec.ofFin i, by simp [placeOf]⟩

/-- Reading the hold set after one place is written. -/
theorem HoldTable.recordOf_put (h : HoldTable) (p q : Position) (r : Option HoldRecord) :
    (h.put p r).recordOf q = if q = p then r else h.recordOf q := by
  unfold HoldTable.recordOf HoldTable.put
  show (h.records.set _ r).get _ = _
  by_cases e : q = p
  · subst e; simp [Vector.get_eq_getElem]
  · rw [if_neg e]
    have : (placeOf p).val ≠ (placeOf q).val := fun k => e (placeOf_inj.mp (Fin.ext k)).symm
    simp [Vector.get_eq_getElem, this]

@[simp] theorem HoldTable.recordOf_replicate (h : HoldTable) (p : Position) :
    HoldTable.recordOf { h with records := Vector.replicate 32 none } p = none := by
  simp [HoldTable.recordOf, Vector.get_eq_getElem]

/-- The set is empty when no source has a record. -/
theorem HoldTable.isEmpty_iff (h : HoldTable) : h.isEmpty = true ↔ ∀ p, h.recordOf p = none := by
  unfold HoldTable.isEmpty HoldTable.recordOf
  rw [List.all_eq_true]
  constructor
  · intro k p
    have := k (h.records.get (placeOf p)) (by simp [Vector.get_eq_getElem])
    simpa using this
  · intro k r hr
    rw [Vector.mem_toList_iff, Vector.mem_iff_getElem] at hr
    obtain ⟨i, hi, rfl⟩ := hr
    obtain ⟨p, hp⟩ := exists_placeOf ⟨i, hi⟩
    have := k p
    rw [hp] at this
    simpa [Vector.get_eq_getElem] using this

/-- A set with a record of some source is not empty. -/
theorem HoldTable.isEmpty_false {h : HoldTable} {p : Position} {r : HoldRecord} (e : h.recordOf p = some r) :
    h.isEmpty = false := by
  cases k : h.isEmpty with
  | false => rfl
  | true => rw [(HoldTable.isEmpty_iff h).mp k p] at e; cases e

/-- Reading the roster after one place is written. -/
theorem Roster.recordOf_put (r : Roster) (p q : Position) (x : RosterRecord) :
    (r.put p x).recordOf q = if q = p then x else r.recordOf q := by
  unfold Roster.recordOf Roster.put
  show (r.records.set _ x).get _ = _
  by_cases e : q = p
  · subst e; simp [Vector.get_eq_getElem]
  · rw [if_neg e]
    have : (placeOf p).val ≠ (placeOf q).val := fun k => e (placeOf_inj.mp (Fin.ext k)).symm
    simp [Vector.get_eq_getElem, this]

end Sys2Proof.Machine
end

