-- ==== Sys2Proof/Laws/Adopt.lean ====
section
/-! SUPPORT. The census, the reports of a new lead, the hold set and the adoption of an order keep the standing facts. -/
namespace Sys2Proof.Machine

/-! ### The census -/

theorem State.startPeriod_eq (s : State) : ∃ p, s.startPeriod = s.setPace p := ⟨_, rfl⟩

/-- Completion of the census keeps the standing facts (R131). -/
theorem State.completeCensus_inv {s : State} (h : s.Base)
    (ht : s.drive.state = .offline ∨ s.drive.state = .halted → s.topTier ≠ none) (hq : s.SilentOk) :
    s.completeCensus.DriveInv := by
  unfold State.completeCensus; dsimp only
  split
  · exact State.settle_inv (h.congr rfl rfl rfl id rfl rfl rfl (fun _ => ⟨rfl, rfl⟩)) ht (fun _ => hq)
  · exact State.settle_inv (h.congr rfl rfl rfl id rfl rfl rfl (fun _ => ⟨rfl, rfl⟩)) ht (fun _ => hq)

/-- One evaluation of the census keeps the standing facts (R130). -/
theorem State.DriveInv.evaluateCensus {s : State} (h : s.DriveInv) : s.evaluateCensus.DriveInv := by
  unfold State.evaluateCensus
  split
  · split
    · exact h.of_same (.of_drive rfl rfl rfl rfl rfl rfl rfl rfl rfl rfl) rfl id rfl rfl h.silent
    · exact State.completeCensus_inv h.base h.settled.topTier_ne h.silent
  · exact h

/-- Entry to MUSTER from a state in which tiers 1 to 3 do not hold (R16). -/
theorem State.enterMuster_inv {s : State} (h : s.Base) (ht : s.topTier = none)
    (hn : s.drive.state ≠ .offline ∧ s.drive.state ≠ .halted) : s.enterMuster.DriveInv := by
  have b := State.transition_base h .muster (fun k => by rcases k with k | k <;> simp_all)
  refine State.DriveInv.evaluateCensus ⟨?_, b.contactor, b.loop, b.stall, b.startUp, State.transition_silent _ _⟩
  unfold State.Settled State.settledState
  rw [State.transition_topTier, ht, State.transition_drive_state]
  simp [State.transition_orders]

/-- Entry to DWELL likewise (R14). -/
theorem State.transition_dwell_inv {s : State} (h : s.Base) (ht : s.topTier = none)
    (hn : s.drive.state ≠ .offline ∧ s.drive.state ≠ .halted) : (s.transition .dwell).DriveInv := by
  have b := State.transition_base h .dwell (fun k => by rcases k with k | k <;> simp_all)
  refine ⟨?_, b.contactor, b.loop, b.stall, b.startUp, State.transition_silent _ _⟩
  unfold State.Settled State.settledState
  rw [State.transition_topTier, ht, State.transition_drive_state]
  simp [State.transition_dwellTimer]

/-- A position conflict keeps the standing facts (R12). -/
theorem State.DriveInv.positionConflict {s : State} (h : s.DriveInv) : s.positionConflict.DriveInv := by
  unfold State.positionConflict
  split
  · exact h
  · rename_i k
    obtain ⟨hp, -⟩ := h.settled.checked k
    have hb : (s.setLoader { s.loader with offlineCause := some .positionConflict }).Base :=
      ⟨h.contactor, h.loop, h.stall, ⟨fun e => absurd hp e, fun e => by simp [hp] at e, h.startUp.resets⟩⟩
    have b := State.transition_base hb .offline (fun _ => .inr (.inl rfl))
    refine ⟨?_, b.contactor, b.loop, b.stall, b.startUp, State.transition_silent _ _⟩
    unfold State.Settled State.settledState
    rw [State.transition_topTier, State.transition_drive_state]
    have : (s.setLoader { s.loader with offlineCause := some .positionConflict }).topTier = some .offline := by
      unfold State.topTier; rw [if_pos (.inr (by simp))]
    rw [this]

/-! ### A new lead -/

/-- A halt taken in a following state by a cause that latches there, whatever the run request has become. -/
theorem State.raiseHalt_following {s t : State} (h : s.DriveInv) (g : Governor) (e : t = s.setGovernor g)
    (c : HaltCause) (o : Option Position) (hc : c.latchesIn s.drive.state = true) :
    (t.raiseHalt c o).DriveInv ∧ (t.raiseHalt c o).drive.state = .halted := by
  subst e
  have hne := HaltCause.latchesIn_ne hc
  obtain ⟨hp, hq⟩ := h.settled.checked hne.1
  have hb : (s.setGovernor g).Base := h.base.congr rfl rfl rfl id rfl rfl rfl (fun _ => ⟨rfl, rfl⟩)
  have : (s.setGovernor g).raiseHalt c o = (s.setGovernor g).enterHalted c o := by
    exact (if_neg hne.2).trans (if_pos hc)
  rw [this]
  exact ⟨State.enterHalted_inv hb hp hq c o, State.enterHalted_state _ _ _⟩

theorem State.setChoices_inv {s : State} (h : s.DriveInv) (n : Nat) : (s.setChoices n).DriveInv :=
  h.of_same (.of_drive rfl rfl rfl rfl rfl rfl rfl rfl rfl rfl) rfl id rfl rfl h.silent

/-- A governor's change, settled (R33). -/
theorem State.DriveInv.settleGovernor {s : State} (h : s.DriveInv) (g : Governor) :
    (s.setGovernor g).settle.DriveInv :=
  h.settle_of rfl rfl rfl rfl rfl rfl rfl rfl id (fun _ => rfl)

/-- A halt with a withdrawn request keeps the standing facts (R39, R51). -/
theorem State.DriveInv.haltAfterWithdrawal {s : State} (h : s.DriveInv) (g : Governor) (c : HaltCause)
    (hc : c.latchesIn s.drive.state = true) :
    ((s.setGovernor g).haltAfterWithdrawal c).DriveInv := by
  unfold State.haltAfterWithdrawal; dsimp only
  have i := (State.raiseHalt_following h g rfl c (some (s.setGovernor g).own) hc).1
  split
  · exact State.setChoices_inv (i.setRecord _) _
  · exact i

/-- A misalignment on a new lead keeps the standing facts (R36, R39). -/
theorem State.DriveInv.misalignReports {s : State} (h : s.DriveInv) (g : Governor) (k : s.isFollowing = true) :
    (s.setGovernor g).misalignReports.DriveInv := by
  have hc : HaltCause.misalign.latchesIn s.drive.state = true := k
  unfold State.misalignReports
  split
  · split
    · exact (State.setChoices_inv h _).settleGovernor g
    · exact (State.raiseHalt_following (State.setChoices_inv h (s.choices + 1)) g rfl .misalign _ hc).1
  · exact h.haltAfterWithdrawal g .misalign hc

theorem State.setGovernor_same (s : State) (g : Governor) (e : s.governor.runRequest = g.runRequest) :
    s.SameInputs (s.setGovernor g) :=
  .of_drive rfl rfl rfl rfl rfl rfl rfl rfl rfl e.symm

/-- A station past its checks and without a conflict is not OFFLINE. -/
theorem State.Settled.ne_offline {s : State} (h : s.Settled) (hp : s.loader.state = .passed)
    (hc : s.loader.offlineCause = none) : s.drive.state ≠ .offline := by
  intro k
  have := h.offline_topTier k
  unfold State.topTier State.checksPassed at this
  rw [if_neg (by simp [hp, hc])] at this
  split_ifs at this <;> cases this

/-- The decision operations never take a settled station to OFFLINE. -/
theorem State.DriveInv.ne_offline {s t : State} (h : s.DriveInv) (k : s.drive.state ≠ .offline) (ht : t.DriveInv)
    (o : t.loader = s.loader) : t.drive.state ≠ .offline := by
  obtain ⟨hp, hc⟩ := h.settled.checked k
  exact ht.settled.ne_offline (by rw [o]; exact hp) (by rw [o]; exact hc)

/-- The reports of one pass over a new lead keep the standing facts (R39). -/
theorem State.DriveInv.leadReports {s : State} (h : s.DriveInv) (g : Governor) (k : s.drive.state ≠ .offline) :
    ((s.setGovernor g).leadReports s.governor).DriveInv := by
  unfold State.leadReports
  split
  · rename_i m
    exact h.misalignReports g (by simpa [State.misaligned, State.isFollowing] using (Bool.and_eq_true_iff.mp m).1)
  · dsimp only
    have h1 : (if s.governor.runRequest = (s.setGovernor g).governor.runRequest then s.setGovernor g
        else (s.setGovernor g).settle).DriveInv := by
      split
      · rename_i e
        exact h.of_same (s.setGovernor_same g e) rfl id rfl rfl h.silent
      · exact h.settleGovernor g
    have ho : (if s.governor.runRequest = (s.setGovernor g).governor.runRequest then s.setGovernor g
        else (s.setGovernor g).settle).loader = s.loader := by
      split
      · rfl
      · exact (State.SameOuter.quiet.settle (s.setGovernor g)).loader
    have h2 := h1.reportReason (h.ne_offline k h1 ho) .lag
    split
    · exact h2 _
    · exact (h2 _).evaluateCensus

/-! ### The hold set -/

theorem State.DriveInv.settleHolds {s : State} (h : s.DriveInv) (x : HoldTable) : (s.setHolds x).settle.DriveInv :=
  h.settle_of rfl rfl rfl rfl rfl rfl rfl rfl id (fun _ => rfl)

theorem State.DriveInv.setHolds {s : State} (h : s.DriveInv) (x : HoldTable) (e : x.isEmpty = s.holds.isEmpty) :
    (s.setHolds x).DriveInv :=
  h.of_same (.of_drive rfl rfl rfl rfl rfl rfl rfl e rfl rfl) rfl id rfl rfl h.silent

/-- A record written keeps the standing facts (R75). -/
theorem State.DriveInv.writeHold {s : State} (h : s.DriveInv) (p : Position) (r : HoldRecord) :
    (s.writeHold p r).DriveInv := by
  unfold State.writeHold; dsimp only
  split
  · exact h.settleHolds _
  · rename_i k
    refine h.setHolds _ ?_
    rw [HoldTable.isEmpty_false (p := p) (r := r) (by rw [HoldTable.recordOf_put, if_pos rfl])]
    simpa using k

/-- A record removed keeps the standing facts (R76, R77). -/
theorem State.DriveInv.removeHold {s : State} (h : s.DriveInv) (p : Position) : (s.removeHold p).DriveInv := by
  unfold State.removeHold
  split
  · exact h
  · rename_i r e
    dsimp only
    split
    · exact h.settleHolds _
    · rename_i k
      refine h.setHolds _ ?_
      rw [HoldTable.isEmpty_false e]
      simpa using k

theorem State.DriveInv.applyClaim {s : State} (h : s.DriveInv) p r n : (s.applyClaim p r n).DriveInv := by
  unfold State.applyClaim; dsimp only
  split
  · exact h.writeHold _ _
  · exact h.removeHold _

/-! ### Adopting an order -/

theorem State.writeOrder_eq (s : State) n a d p : ∃ x c y,
    s.writeOrder n a d p = ((((s.setOrders (s.orders.adopt n a d p)).setHolds
      { s.holds with records := Vector.replicate 32 none }).setClaim c).setLine x).setPace y := by
  unfold State.writeOrder; dsimp only
  split
  · exact ⟨{ s.line with claimSlot := none, statusSlot := s.line.statusSlot || !s.claim.reasons.isEmpty },
      ClaimUnit.reset, _, rfl⟩
  · exact ⟨{ s.line with claimSlot := none, statusSlot := s.line.statusSlot || !s.claim.reasons.isEmpty },
      ClaimUnit.reset, s.pace, rfl⟩

theorem State.DriveInv.requestStatus {s : State} (h : s.DriveInv) (k : s.drive.state ≠ .offline) :
    s.requestStatus.DriveInv := h.setLine k _

theorem State.DriveInv.reportReasons {s : State} (h : s.DriveInv) (k : s.drive.state ≠ .offline) :
    s.reportReasons.DriveInv :=
  ((h.reportReason k _ _).reportReason (by simpa using k) _ _).reportReason (by simpa using k) _ _

theorem State.DriveInv.afterAdoption {s : State} (h : s.DriveInv) : s.afterAdoption.DriveInv := by
  unfold State.afterAdoption
  split
  · rename_i k; exact (h.requestStatus (by rw [k]; decide)).evaluateCensus
  · split
    · rename_i k
      exact h.reportReasons (by intro e; rw [State.isFollowing, e] at k; exact absurd k (by decide))
    · exact h

/-- An adoption keeps the standing facts (R122). -/
theorem State.DriveInv.adopt {s : State} (h : s.DriveInv) (k : s.drive.state ≠ .offline) b n a d p :
    (s.adopt b n a d p).DriveInv := by
  obtain ⟨hp, hc⟩ := h.settled.checked k
  obtain ⟨x, c, y, e⟩ := s.writeOrder_eq n a d p
  unfold State.adopt
  dsimp only
  generalize s.writeOrder n a d p = t at *
  have hb : t.Base := by
    rw [e]
    exact h.base.congr rfl rfl rfl id rfl rfl rfl (fun q => absurd hp q)
  have hd : t.drive = s.drive := by rw [e]; rfl
  have hl : t.loader = s.loader := by rw [e]; rfl
  have hh : t.halt = s.halt := by rw [e]; rfl
  have ha : t.orders.action = a := by rw [e]; rfl
  have hu : t.orders.unset = false := by rw [e]; rfl
  have hlatch : s.drive.state = .halted → s.halt.latched = true := by
    intro q
    have := h.settled.halted_topTier q
    unfold State.topTier State.checksPassed at this
    rw [if_neg (by simp [hp, hc])] at this
    split_ifs at this with w
    · exact w
    all_goals cases this
  have htop : t.halt.latched = true → t.topTier = some .halted := by
    intro q
    unfold State.topTier State.checksPassed
    rw [if_neg (by rw [hl]; simp [hp, hc]), if_pos q]
  split
  · rename_i w
    refine State.DriveInv.afterAdoption ?_
    by_cases q : s.drive.state = .halted
    · have ht : t.DriveInv := by
        refine ⟨?_, hb.contactor, hb.loop, hb.stall, hb.startUp, .of_ne (by rw [hd, q]; decide)⟩
        unfold State.Settled State.settledState
        rw [htop (by rw [hh]; exact hlatch q), hd, q]
      exact ht.raiseHalt _ _
    · have hi : s.drive.state = .idle := by
        by_contra hi
        have := h.settled.topTier_none k q hi
        unfold State.topTier at this
        simp [w.2.2] at this
        split_ifs at this
      have : ∀ o, t.raiseHalt .restart o = t.enterHalted .restart o := by
        intro o
        unfold State.raiseHalt
        rw [hd, hi]; rfl
      rw [this]
      exact State.enterHalted_inv hb (by rw [hl]; exact hp) (by rw [hl]; exact hc) _ _
  · refine State.DriveInv.afterAdoption ?_
    -- the state after the Halt Unit's decision on a CLEAR
    have key : ∀ u : State, u.Base → u.drive = s.drive → (s.drive.state = .halted → u.topTier ≠ none) →
        u.settleAdopted.DriveInv := by
      intro u bu du tu
      have nu : u.drive.state ≠ .offline := by rw [du]; exact k
      have st : u.settle.DriveInv := State.settle_inv bu
        (by rintro (q | q)
            · exact absurd q nu
            · exact tu (by rw [← du]; exact q)) (fun _ => .of_ne nu)
      unfold State.settleAdopted
      split
      · exact st
      · rename_i q
        have nh : u.drive.state ≠ .offline ∧ u.drive.state ≠ .halted :=
          ⟨nu, fun z => tu (by rw [← du]; exact z) q⟩
        split
        · exact State.transition_dwell_inv bu q nh
        · split
          · exact State.enterMuster_inv bu q nh
          · exact st
    split
    · rename_i w
      unfold State.decideClear
      have tt : ∀ u : State, u.orders.action = .clear → u.topTier ≠ none := by
        intro u q
        unfold State.topTier
        split_ifs with z1 z2 z3
        · simp
        · simp
        · simp
        · exact absurd (.inr (by rw [q]; decide)) z3
      split
      · exact key t hb hd (fun _ => tt t (by rw [ha]; exact w.2))
      · refine key _ (hb.congr rfl rfl rfl id rfl rfl rfl (fun q => absurd (hl ▸ hp) q)) hd
          (fun _ => tt _ (by show t.orders.action = _; rw [ha]; exact w.2))
    · rename_i w
      refine key t hb hd (fun q => ?_)
      rw [htop (by rw [hh]; exact hlatch q)]; simp

theorem State.DriveInv.refuseOrder {s : State} (h : s.DriveInv) : s.refuseOrder.DriveInv :=
  h.of_same (.of_drive rfl rfl rfl rfl rfl rfl rfl rfl rfl rfl) rfl id rfl rfl h.silent

theorem State.DriveInv.takeOrder {s : State} (h : s.DriveInv) (k : s.drive.state ≠ .offline) n a d p :
    (s.takeOrder n a d p).DriveInv := by
  unfold State.takeOrder
  split
  · split
    · exact h.adopt k _ _ _ _ _
    · exact h.refuseOrder
  · exact h.refuseOrder
  · exact h.refuseOrder

theorem State.DriveInv.catchUp {s : State} (h : s.DriveInv) (k : s.drive.state ≠ .offline) n b :
    (s.catchUp n b).DriveInv := by
  unfold State.catchUp
  split
  · exact h
  · split
    · split
      · exact h.adopt k _ _ _ _ _
      · exact h.refuseOrder
      · exact h.refuseOrder
    · exact h

end Sys2Proof.Machine
end

