-- ==== Sys2Proof/Laws/DriveFacts.lean ====
section
/-! SUPPORT. Each command keeps the standing facts of the run decision: one lemma for each meaning, and for each operation it is
made of. -/

open Sys2Proof Sys2Proof.Machine Host

namespace Sys2Proof.Machine

set_option maxHeartbeats 1000000

theorem reset_facts (s : State) (keep : Bool) (z : ResetLines) : ((s.beginReset keep).setResets z).DriveInv := by
  have hr : ((s.beginReset keep).setResets z).loader = Loader.reset := rfl
  refine ⟨?_, ⟨rfl, ?_⟩, ?_, ?_, ⟨fun _ => ⟨rfl, rfl⟩, fun _ => rfl, fun _ => rfl⟩, fun _ => ⟨rfl, rfl, rfl, rfl,
      rfl⟩⟩
  · rfl
  · cases keep <;> rfl
  · cases keep <;> rfl
  · intro h; cases keep <;> exact absurd rfl h

/-- setting only resets / pending fields -/
theorem driveInv_setPending {s : State} (h : s.DriveInv) (p) : (s.setPending p).DriveInv :=
  h.of_same (.of_drive rfl rfl rfl rfl rfl rfl rfl rfl rfl rfl) rfl id rfl rfl h.silent

theorem resetEnd_inv {s : State} (h : s.DriveInv) (hr : s.loader.state = .reading) (z : ResetLines) (p : Position) :
    ((s.setResets z).endReset p).DriveInv := by
  have hoff : s.drive.state = .offline := by
    by_contra k; have := (h.settled.checked k).1; rw [hr] at this; cases this
  obtain ⟨e1, e2⟩ := h.startUp.early (by rw [hr]; decide)
  refine ⟨?_, ?_, ?_, ?_, ⟨fun _ => ⟨e1, e2⟩, fun _ => h.startUp.reading hr, fun _ => hr⟩, ?_⟩
  · unfold State.Settled State.settledState State.topTier
    rw [if_pos (.inl (by simp [State.checksPassed, State.endReset, hr]))]
    exact hoff.symm
  · exact h.contactor
  · exact h.loop
  · exact h.stall
  · exact h.silent

theorem exec_driveInv_powerOnResetEnd {s t : State} (h : s.DriveInv) (p) (e : execPowerOnResetEnd p s = .next t) : t.DriveInv := by
  unfold execPowerOnResetEnd at e
  split at e
  · rename_i k
    have hr := h.startUp.resets (by simp [State.inReset, k])
    dsimp only at e
    split at e <;> cases e
    · refine ⟨h.settled, h.contactor, h.loop, h.stall, ⟨h.startUp.early, h.startUp.reading, fun _ => hr⟩, h.silent⟩
    · exact resetEnd_inv h hr _ _
  · cases e; exact h

theorem exec_driveInv_resetPinRelease {s t : State} (h : s.DriveInv) (p) (e : execResetPinRelease p s = .next t) : t.DriveInv := by
  unfold execResetPinRelease at e
  split at e
  · rename_i k
    have hr := h.startUp.resets (by simp [State.inReset, k])
    dsimp only at e
    split at e <;> cases e
    · refine ⟨h.settled, h.contactor, h.loop, h.stall, ⟨h.startUp.early, h.startUp.reading, fun _ => hr⟩, h.silent⟩
    · exact resetEnd_inv h hr _ _
  · cases e; exact h

theorem beginExchange_eq (s : State) (r : Bool) : ∃ p, s.beginExchange r = s.setSensor p := by
  unfold State.beginExchange; dsimp only; split <;> exact ⟨_, rfl⟩

theorem exec_driveInv_checksPass {s : State} (h : s.DriveInv) (hr : s.loader.state = .reading) (c x b) (l : Loader) (z : SensorPort) (hl : l.offlineCause = none)
   (hz : s.inReset = false) (e : l = {s.loader with state := .checking, config := c, crc := x}) :
    (((s.setLoader l).setSensor z).checksPass b).DriveInv := by
  have hoff : s.drive.state = .offline := by
    by_contra k; have := (h.settled.checked k).1; rw [hr] at this; cases this
  obtain ⟨e1, e2⟩ := h.startUp.early (by rw [hr]; decide)
  have key : ∀ u : State, u.drive = s.drive → u.stride = s.stride → u.halt = s.halt → u.orders = s.orders →
     u.loader.state = .passed → u.loader.offlineCause = none → u.resets = s.resets → u.settle.DriveInv := by
    intro u a1 a2 a3 a4 a5 a6 a7
    refine State.settle_inv ⟨?_, ?_, ?_, ?_⟩ ?_ ?_
    · have := h.contactor; unfold State.ContactorOk at *; rw [a1, a2]; exact this
    · have := h.loop; unfold State.LoopOk at *; rw [a1, a3]; exact this
    · have := h.stall; unfold State.StallTimerOk at *; rw [a1, a2]; exact this
    · refine ⟨fun q => absurd a5 q, fun q => (by rw [a5] at q; cases q), fun q => ?_⟩
      simp only [State.inReset, a7] at q hz; rw [hz] at q; cases q
    · intro _
      unfold State.topTier State.checksPassed
      rw [if_neg (by simp [a5, a6]), a3, a4, e1, e2]; simp
    · intro q
      exfalso
      unfold State.settledState State.topTier State.checksPassed at q
      rw [if_neg (by simp [a5, a6]), a3, a4, e1, e2, a1, hoff] at q
      simp at q
  unfold State.checksPass State.beginSensing
  split
  · apply key <;> first | rfl | exact hl
  · obtain ⟨p, e⟩ := beginExchange_eq (((s.setLoader l).setSensor z).handOver) b
    rw [e]
    apply key <;> simp [State.handOver, hl]

theorem exec_driveInv_configReadComplete {s t : State} (h : s.DriveInv) (i b) (e : execConfigReadComplete i b s = .next t) : t.DriveInv := by
  unfold execConfigReadComplete at e
  split at e
  · rename_i k
    obtain ⟨k1, k2, k3⟩ := k
    have hoff : s.drive.state = .offline := by
      by_contra q; have := (h.settled.checked q).1; rw [k2] at this; cases this
    obtain ⟨e1, e2⟩ := h.startUp.early (by rw [k2]; decide)
    dsimp only at e
    split at e <;> cases e
    · refine ⟨?_, ?_, ?_, ?_, ⟨fun _ => ⟨e1, e2⟩, fun q => (by cases q), fun q => ?_⟩, ?_⟩
      · unfold State.Settled State.settledState State.topTier
        rw [if_pos (.inl (by simp [State.checksPassed, State.checksFail]))]
        simp [State.checksFail, hoff]
      · have := h.contactor; unfold State.ContactorOk at *; simpa [State.checksFail] using this
      · have := h.loop; unfold State.LoopOk at *; simpa [State.checksFail] using this
      · have := h.stall; unfold State.StallTimerOk at *; simpa [State.checksFail] using this
      · simp only [State.inReset, State.checksFail] at q k1; simp at q k1; simp [k1] at q
      · intro q; exact h.silent hoff
    · exact exec_driveInv_checksPass h k2 _ _ _ _ _ (h.startUp.reading k2) k1 rfl
  · cases e; exact h

theorem exec_driveInv_restEnd {s t : State} (h : s.DriveInv) (e : execContactorRestEnd s = .next t) : t.DriveInv := by
  unfold execContactorRestEnd at e
  split at e <;> cases e
  · exact h.settle_of rfl rfl rfl rfl rfl rfl rfl rfl id (fun _ => rfl)
  · exact h

theorem exec_driveInv_dwell {s t : State} (h : s.DriveInv) (e : execDwellTimerExpiry s = .next t) : t.DriveInv := by
  unfold execDwellTimerExpiry at e
  split at e
  · rename_i k
    dsimp only at e
    have hb : (s.setDrive { s.drive with dwellTimer := none }).Base :=
      h.base.congr rfl rfl rfl id rfl rfl rfl (fun _ => ⟨rfl, rfl⟩)
    split at e <;> cases e
    · rename_i q
      exact State.enterMuster_inv hb q (by constructor <;> (show s.drive.state ≠ _; rw [k.1]; decide))
    · exact h.settle_of rfl rfl rfl rfl rfl rfl rfl rfl id (fun _ => rfl)
  · cases e; exact h

theorem exec_driveInv_lamp {s t : State} (h : s.DriveInv) (e : execLampBlinkStep s = .next t) : t.DriveInv := by
  unfold execLampBlinkStep at e
  split at e
  · rename_i k
    split at e <;> cases e
    · exact ⟨h.settled, h.contactor, h.loop, h.stall, ⟨h.startUp.early, h.startUp.reading, h.startUp.resets⟩,
          h.silent⟩
    · exact h
  · cases e; exact h

theorem countDown_ne {t : Option Nat} : countDown t ≠ none ↔ t ≠ none := by cases t <;> simp [countDown]

theorem countDown_eq {t : Option Nat} : countDown t = none ↔ t = none := by cases t <;> simp [countDown]

theorem tick_same (s : State) : s.SameInputs s.tick := by
  have h1 : s.drive.tick.rest = .rested ↔ s.drive.rest = .rested := by
    unfold DriveControl.tick; dsimp only; split <;> simp_all
  have h2 : (s.pace.tick s.pacePeriod).request = s.pace.request := by
    unfold PaceTimer.tick; split <;> rfl
  have h3 : s.drive.tick.dwellTimer = none ↔ s.drive.dwellTimer = none := countDown_eq
  have h4 : (s.stride.tick s.drive.runOutput).retryPause = none ↔ s.stride.retryPause = none := countDown_eq
  constructor <;> simp only [State.tick, State.setLocalTime_loader, State.setDrive_loader, State.setSensor_loader,
      State.setStride_loader, State.setPace_loader, State.setRoster_loader,
    State.setOrders_loader, State.setHalt_loader, State.setLine_loader, State.setHalt_halt, State.setLine_halt,
        State.setLine_orders, State.setHalt_orders, State.setOrders_orders,
    State.setLine_drive, State.setHalt_drive, State.setOrders_drive, State.setRoster_drive, State.setPace_drive,
        State.setStride_drive, State.setSensor_drive, State.setDrive_drive,
    State.setLine_stride, State.setHalt_stride, State.setOrders_stride, State.setRoster_stride,
        State.setPace_stride, State.setStride_stride,
    State.setLine_pace, State.setHalt_pace, State.setOrders_pace, State.setRoster_pace, State.setPace_pace, h1, h2,
        h3, h4] <;> rfl

theorem exec_driveInv_tick {s t : State} (h : s.DriveInv) (e : execLocalTimeTick s = .next t) : t.DriveInv := by
  unfold execLocalTimeTick at e
  split at e
  · cases e; exact h
  · cases e
    refine h.of_same (tick_same s) rfl (fun q => countDown_ne.mp q) rfl rfl ?_
    intro q
    obtain ⟨a, b, c, d, e⟩ := h.silent q
    refine ⟨?_, b, ?_, d, ?_⟩
    · show s.line.transmitter.tick = _; rw [a]; rfl
    · show s.line.answerSlot.map _ = _; rw [c]; rfl
    · show countDown s.line.reportTimer = _; rw [e]; rfl

/-! sensor -/

theorem driveInv_setSensor {s : State} (h : s.DriveInv) (p) : (s.setSensor p).DriveInv :=
  h.of_same (.of_drive rfl rfl rfl rfl rfl rfl rfl rfl rfl rfl) rfl id rfl rfl h.silent

theorem driveInv_beginExchange {s : State} (h : s.DriveInv) (r) : (s.beginExchange r).DriveInv := by
  obtain ⟨p, e⟩ := beginExchange_eq s r
  rw [e]; exact driveInv_setSensor h p

theorem driveInv_sensorHalt {s : State} (h : s.DriveInv) (k : s.isFollowing = true) : s.sensorHalt.DriveInv :=
  h.haltAfterWithdrawal _ .sensor k

theorem driveInv_emptyWindow {s : State} (h : s.DriveInv) (k : s.drive.state ≠ .offline) : s.emptyWindow.DriveInv :=
  h.leadReports _ k

theorem outer_leadReports (s : State) (g) (g') : ((s.setGovernor g).leadReports g').loader = s.loader :=
  (State.SameOuter.quiet.leadReports (s.setGovernor g) g').loader

theorem driveInv_failed {s : State} (h : s.DriveInv) (k : s.drive.state ≠ .offline) : s.failedExchange.DriveInv := by
  unfold State.failedExchange
  have h' := driveInv_setSensor h s.sensor.countFailure
  generalize hu : s.setSensor s.sensor.countFailure = u at *
  have k' : u.drive.state ≠ .offline := by rw [← hu]; exact k
  unfold State.failureConsequence
  have he := driveInv_emptyWindow h' k'
  split
  · rename_i q
    split
    · split
      · exact h'
      · exact driveInv_sensorHalt h' q
    · split
      · unfold State.markSensorFault
        refine (driveInv_setSensor he _).reportReason ?_ _ _
        exact (h'.ne_offline k' he (outer_leadReports u _ _) : u.emptyWindow.drive.state ≠ .offline)
      · exact driveInv_sensorHalt h' q
    · exact driveInv_sensorHalt h' q
  · split
    · exact h'
    · exact he
    · exact he

theorem driveInv_good {s : State} (h : s.DriveInv) (k : s.drive.state ≠ .offline) (b) : (s.goodSample b).DriveInv := by
  unfold State.goodSample; dsimp only
  have ht : (s.takeSample b).DriveInv := h.leadReports _ k
  refine (driveInv_setSensor ht _).reportReason ?_ _ _
  exact (h.ne_offline k ht (outer_leadReports s _ _) : (s.takeSample b).drive.state ≠ .offline)

theorem driveInv_finish {s : State} (h : s.DriveInv) (f) (n) (hf : ∀ u : State, u.DriveInv
    → u.drive.state ≠ .offline → (f u).DriveInv) : (s.finishExchange f n).DriveInv := by
  unfold State.finishExchange
  split
  · exact driveInv_setSensor h _
  · rename_i k
    dsimp only
    have := hf (s.setSensor (s.sensor.endExchange false)) (driveInv_setSensor h _) k
    split
    · exact driveInv_beginExchange this _
    · exact this

theorem exec_driveInv_sampleTimer {s t : State} (h : s.DriveInv) (r) (e : execSampleTimerExpiry r s = .next t) : t.DriveInv := by
  unfold execSampleTimerExpiry at e
  split at e
  swap
  · cases e; exact h
  · split at e <;> cases e
    · exact driveInv_beginExchange h r
    all_goals exact driveInv_setSensor h _

theorem exec_driveInv_readyAssert {s t : State} (h : s.DriveInv) (e : execReadyAssert s = .next t) : t.DriveInv := by
  unfold execReadyAssert at e
  split at e <;> cases e
  · exact driveInv_setSensor h _
  · exact h

theorem exec_driveInv_readyTimeout {s t : State} (h : s.DriveInv) (r) (e : execReadyTimeout r s = .next t) : t.DriveInv := by
  unfold execReadyTimeout at e
  split at e <;> cases e
  · exact driveInv_finish h _ _ (fun u hu k => driveInv_failed hu k)
  · exact h

theorem exec_driveInv_short {s t : State} (h : s.DriveInv) (r) (e : execShort r s = .next t) : t.DriveInv := by
  unfold execShort at e
  split at e <;> cases e
  · exact driveInv_finish (driveInv_setSensor h _) _ _ (fun u hu k => driveInv_failed hu k)
  · exact h

theorem exec_driveInv_shift {s t : State} (h : s.DriveInv) (w r) (e : execShiftComplete w r s = .next t) : t.DriveInv := by
  unfold execShiftComplete at e
  split at e <;> cases e
  · refine driveInv_finish (driveInv_setSensor h _) _ _ (fun u hu k => ?_)
    unfold State.judgeWord; dsimp only
    split
    · exact driveInv_failed hu k
    · split
      · exact driveInv_failed hu k
      · exact driveInv_good hu k _
  · exact h

/-! wheel -/

theorem driveInv_setStride {s : State} (h : s.DriveInv) (m : StrideMonitor) (h1 : m.retryPause = s.stride.retryPause)
    (h2 : m.contactorOn = s.stride.contactorOn) (h3 : m.stallTimer ≠ none
        → s.stride.stallTimer ≠ none ) : (s.setStride m).DriveInv :=
  h.of_same (.of_drive rfl rfl rfl rfl rfl rfl h1 rfl rfl rfl) h2 h3 rfl rfl h.silent

theorem exec_driveInv_wheelPulse {s t : State} (h : s.DriveInv) (e : execWheelPulse s = .next t) : t.DriveInv := by
  unfold execWheelPulse at e
  split at e
  · cases e; exact h
  · dsimp only at e
    have h' : (s.setStride (s.stride.acceptPulse s.drive.direction)).DriveInv := driveInv_setStride h _ rfl rfl id
    generalize s.setStride (s.stride.acceptPulse s.drive.direction) = u at *
    split at e
    · rename_i ha
      have ku : u.drive.state ≠ .offline := by
        simp [State.active] at ha; exact ha.2
      cases e
      split
      · rename_i hc
        unfold State.pulseOn; dsimp only
        have hs : u.drive.state = .run := by
          have := h'.contactor; unfold State.ContactorOk at this; rw [this.2, this.1] at hc; simpa using hc
        have : (u.setStride (u.stride.segmentPulse u.config)).DriveInv := by
          refine ⟨?_, h'.contactor, h'.loop, fun _ => hs, ⟨h'.startUp.early, h'.startUp.reading, h'.startUp.resets⟩,
              h'.silent⟩
          exact State.SameInputs.settled (s := u) (.of_drive rfl rfl rfl rfl rfl rfl rfl rfl rfl rfl) h'.settled
        split
        · unfold State.stallClear
          refine State.DriveInv.reportReason ?_ ?_ _ _
          · exact driveInv_setStride this _ rfl rfl id
          · exact ku
        · exact this
      · unfold State.pulseOff
        split
        · exact h'
        · split
          · exact driveInv_setStride h' _ rfl rfl id
          · unfold State.creep; dsimp only
            have := driveInv_setStride h' u.stride.creepPulse rfl rfl id
            split
            · exact this.raiseHalt _ _
            · exact this
    · cases e; exact h'

theorem exec_driveInv_stall {s t : State} (h : s.DriveInv) (e : execStallTimerExpiry s = .next t) : t.DriveInv := by
  unfold execStallTimerExpiry at e
  split at e
  swap
  · cases e; exact h
  · rename_i hk
    have hr : s.drive.state = .run := h.stall (by rw [hk]; simp)
    cases e
    unfold State.takeStall; dsimp only
    have h1 : (s.setStride { s.stride with stallTimer := none, stallEvents := satInc s.stride.stallEvents }).DriveInv :=
      driveInv_setStride h _ rfl rfl (fun q => absurd rfl q)
    generalize hu : s.setStride { s.stride with stallTimer := none, stallEvents := satInc s.stride.stallEvents } = u at *
    have hur : u.drive.state = .run := by rw [← hu]; exact hr
    have hT : u.topTier = none :=
        h1.settled.topTier_none (by rw [hur]; decide) (by rw [hur]; decide) (by rw [hur]; decide)
    split
    · have h2 : (u.setStride { u.stride with consecutiveStalls := u.stride.consecutiveStalls + 1 }).DriveInv :=
        driveInv_setStride h1 _ rfl rfl id
      generalize hv : u.setStride { u.stride with consecutiveStalls := u.stride.consecutiveStalls + 1 } = v at *
      have hvr : v.drive.state = .run := by rw [← hv]; exact hur
      have hT' : v.topTier = none := by rw [← hv]; exact hT
      split
      · unfold State.retryStall State.enterStalled
        generalize hw' : v.setStride (v.stride.pause v.config) = w
        have hw : w.topTier = none := by rw [← hw']; exact hT'
        rw [if_pos hw]
        have hwr : w.drive.state = .run := by rw [← hw']; exact hvr
        have hb : w.Base := by rw [← hw']; exact h2.base.congr rfl rfl rfl id rfl rfl rfl (fun _ => ⟨rfl, rfl⟩)
        have b := State.transition_base hb .stalled (by intro q; exfalso; rcases q with q | q <;> rw [hwr] at q <;> cases q)
        have i : (w.transition .stalled).DriveInv := by
          refine ⟨?_, b.contactor, b.loop, b.stall, b.startUp, State.transition_silent _ _⟩
          unfold State.Settled State.settledState
          rw [State.transition_topTier, hw, State.transition_drive_state]
          have : w.drive.state ≠ .stalled := by rw [hwr]; decide
          rw [State.transition_retryPause, if_neg this]
          rw [← hw']; rfl
        have j := i.followingEntry
        refine j.reportReason ?_ _ _
        exact i.ne_offline (by rw [State.transition_drive_state]; decide) j (State.SameOuter.quiet.followingEntry _).loader
      · exact h2.raiseHalt _ _
    · exact h1.raiseHalt _ _
    · exact h1

theorem exec_driveInv_retryEnd {s t : State} (h : s.DriveInv) (e : execRetryPauseEnd s = .next t) : t.DriveInv := by
  unfold execRetryPauseEnd at e
  split at e <;> cases e
  · exact h.settle_of rfl rfl rfl rfl rfl rfl rfl rfl id (fun _ => rfl)
  · exact h

theorem exec_driveInv_pace1 {s t : State} (h : s.DriveInv) (e : execEndOfOnPart s = .next t) : t.DriveInv := by
  unfold execEndOfOnPart at e
  split at e
  · dsimp only at e
    split at e <;> cases e
    · exact h.settle_of rfl rfl rfl rfl rfl rfl rfl rfl id (fun _ => rfl)
    · rename_i q
      exact h.of_same (.of_drive rfl rfl rfl rfl rfl rfl rfl rfl (by show false = _; simpa using q) rfl) rfl id rfl rfl h.silent
  · cases e; exact h

theorem exec_driveInv_pace2 {s t : State} (h : s.DriveInv) (e : execEndOfPeriod s = .next t) : t.DriveInv := by
  unfold execEndOfPeriod at e
  split at e
  · dsimp only at e
    split at e <;> cases e
    · rename_i q
      exact h.of_same (.of_drive rfl rfl rfl rfl rfl rfl rfl rfl q rfl) rfl id rfl rfl h.silent
    · exact h.settle_of rfl rfl rfl rfl rfl rfl rfl rfl id (fun _ => rfl)
  · cases e; exact h

theorem driveInv_setRoster {s : State} (h : s.DriveInv) (r) : (s.setRoster r).DriveInv :=
  h.of_same (.of_drive rfl rfl rfl rfl rfl rfl rfl rfl rfl rfl) rfl id rfl rfl h.silent

theorem exec_driveInv_stale {s t : State} (h : s.DriveInv) (p) (e : execStaleAgePassed p s = .next t) : t.DriveInv := by
  unfold execStaleAgePassed at e; dsimp only at e
  split at e <;> cases e
  · exact (driveInv_setRoster h _).evaluateCensus
  · exact h

theorem exec_driveInv_lost {s t : State} (h : s.DriveInv) (p) (e : execLostLimitPassed p s = .next t) : t.DriveInv := by
  unfold execLostLimitPassed at e; dsimp only at e
  split at e <;> cases e
  · exact (driveInv_setRoster h _).evaluateCensus.raiseHalt _ _
  · exact h

theorem exec_driveInv_musterTimer {s t : State} (h : s.DriveInv) (e : execMusterTimerExpiry s = .next t) : t.DriveInv := by
  unfold execMusterTimerExpiry at e
  split at e <;> cases e
  · rename_i k
    obtain ⟨hp, hc⟩ := h.settled.checked (by rw [k.1]; decide)
    generalize hu : s.setOrders { s.orders with musterTimer := none, counting := false, blocker := none } = u
    have hb : u.Base := by rw [← hu]; exact h.base.congr rfl rfl rfl id rfl rfl rfl (fun _ => ⟨rfl, rfl⟩)
    have hs : u.drive.state = .muster := by rw [← hu]; exact k.1
    have : u.raiseHalt .musterTimeout (some u.own) = u.enterHalted .musterTimeout (some u.own) := by
      unfold State.raiseHalt; rw [hs]; rfl
    have hown : s.own = u.own := by rw [← hu]; rfl
    rw [hown, this]
    exact State.enterHalted_inv hb (by rw [← hu]; exact hp) (by rw [← hu]; exact hc) _ _
  · exact h

theorem exec_driveInv_loopChange {s t : State} (h : s.DriveInv) (b) (e : execLoopSenseChange b s = .next t) : t.DriveInv := by
  unfold execLoopSenseChange at e
  split at e <;> cases e
  · exact h
  · exact h.of_same (.of_drive rfl rfl rfl rfl rfl rfl rfl rfl rfl rfl) rfl id rfl rfl h.silent

theorem exec_driveInv_loopSettled {s t : State} (h : s.DriveInv) (e : execLoopSenseSettled s = .next t) : t.DriveInv := by
  unfold execLoopSenseSettled at e
  split at e
  swap
  · cases e; exact h
  · dsimp only at e
    have h' : (s.setHalt s.halt.settleSense).DriveInv :=
      h.of_same (.of_drive rfl rfl rfl rfl rfl rfl rfl rfl rfl rfl) rfl id rfl rfl h.silent
    split at e <;> cases e
    · unfold State.reportSense; dsimp only
      split
      · exact h'.evaluateCensus
      · exact h'.evaluateCensus.raiseHalt _ _
    · exact h'

/-! lines -/

theorem silent_lines {s : State} (h : s.DriveInv) (x : SpanLine) (h1 : x.transmitter = s.line.transmitter)
   (h2 : x.claimSlot = s.line.claimSlot) (h3 : x.answerSlot = s.line.answerSlot) (h4 : x.statusSlot = s.line.statusSlot)
   (h5 : x.reportTimer = s.line.reportTimer) : (s.setLine x).DriveInv := by
  refine h.of_same (.of_drive rfl rfl rfl rfl rfl rfl rfl rfl rfl rfl) rfl id rfl rfl ?_
  intro k
  obtain ⟨a, b, c, d, e⟩ := h.silent k
  exact ⟨h1.trans a, h2.trans b, h3.trans c, h4.trans d, h5.trans e⟩

theorem setLineState_slots (x : SpanLine) (l y) : (x.setLineState l y).transmitter = x.transmitter ∧
   (x.setLineState l y).claimSlot = x.claimSlot ∧ (x.setLineState l y).answerSlot = x.answerSlot ∧
   (x.setLineState l y).statusSlot = x.statusSlot ∧ (x.setLineState l y).reportTimer = x.reportTimer := by
  cases l <;> exact ⟨rfl, rfl, rfl, rfl, rfl⟩

theorem driveInv_modifyLine {s : State} (h : s.DriveInv) (l f) : (s.modifyLine l f).DriveInv := by
  obtain ⟨a, b, c, d, e⟩ := setLineState_slots s.line l (f (s.line.lineState l))
  exact silent_lines h _ a b c d e

theorem driveInv_hear {s : State} (h : s.DriveInv) (l) : (s.setLine (s.line.hearFrame l)).DriveInv := by
  unfold SpanLine.hearFrame
  split <;> exact silent_lines h _ rfl rfl rfl rfl rfl

theorem exec_driveInv_char {s t : State} (h : s.DriveInv) (l c) (e : execCharacterReceived l c s = .next t) : t.DriveInv := by
  unfold execCharacterReceived at e
  split at e <;> cases e
  · exact driveInv_modifyLine h _ _
  · exact h

theorem driveInv_dropFailed {s : State} (h : s.DriveInv) (l f) : (s.dropFailed l f).DriveInv :=
  driveInv_hear (driveInv_modifyLine h _ _) _

theorem exec_driveInv_checkFailed {s t : State} (h : s.DriveInv) (l) (e : execFrameCheckFailed l s = .next t) : t.DriveInv := by
  unfold execFrameCheckFailed at e; dsimp only at e
  split at e
  · split at e
    · cases e; exact driveInv_modifyLine h _ _
    · split at e <;> cases e
      · exact h
      · exact driveInv_dropFailed h _ _
  · cases e; exact h

theorem exec_driveInv_seize {s t : State} (h : s.DriveInv) (l) (e : execSeizeDetected l s = .next t) : t.DriveInv := by
  unfold execSeizeDetected at e; dsimp only at e
  split at e
  · split at e <;> cases e
    · exact (driveInv_modifyLine h _ _).raiseHalt _ _
    · exact driveInv_modifyLine h _ _
  · cases e; exact h

theorem exec_driveInv_quiet {s t : State} (h : s.DriveInv) (l) (e : execQuietTimerExpiry l s = .next t) : t.DriveInv := by
  unfold execQuietTimerExpiry at e; dsimp only at e
  split at e
  · have h' := driveInv_modifyLine h l (fun y => { y with alive := false, quietTimer := none })
    split at e
    · split at e <;> cases e <;> exact silent_lines h' _ rfl rfl rfl rfl rfl
    · cases e; exact h'
  · cases e; exact h

/-! frames -/

theorem driveInv_noteGood {s : State} (h : s.DriveInv) (l) : (s.noteGood l).DriveInv :=
    driveInv_hear (driveInv_modifyLine h _ _) _

theorem driveInv_receiveGood {s : State} (h : s.DriveInv) (hd k fill deliver)
   (hdel : ∀ u : State, u.DriveInv → u.drive.state ≠ .offline → (deliver u).DriveInv) :
   (s.receiveGood hd k fill deliver).DriveInv := by
  unfold State.receiveGood
  split
  · exact h
  · split
    · exact driveInv_modifyLine h _ _
    · dsimp only
      have h' := driveInv_noteGood h hd.line
      generalize s.noteGood hd.line = u at *
      split
      · rename_i ha
        have ku : u.drive.state ≠ .offline := by simp [State.active] at ha; exact ha.2
        unfold State.rosterTake; dsimp only
        split
        · exact h'.positionConflict
        · split
          · exact driveInv_setRoster h' _
          · split
            · exact driveInv_setRoster h' _
            · split
              · exact driveInv_setRoster h' _
              · unfold State.acceptFrame; dsimp only
                have h2 := driveInv_setRoster h' (u.roster.put hd.source (fill ((u.roster.recordOf hd.source).heard hd.seq)))
                split
                · exact hdel _ h2 ku
                · refine hdel _ h2.evaluateCensus ?_
                  exact h2.ne_offline ku h2.evaluateCensus (State.SameOuter.quiet.evaluateCensus _).loader
      · exact h'

theorem driveInv_refine {s : State} (h : s.DriveInv) (a b) : (s.refineOrigin a b).DriveInv := by
  unfold State.refineOrigin; dsimp only
  split
  · split
    · exact h.setRecord _
    · exact h
  · exact h

theorem driveInv_deliverStatus {s : State} (h : s.DriveInv) (k : s.drive.state ≠ .offline) (a b) : (s.deliverStatus a b).DriveInv := by
  unfold State.deliverStatus; dsimp only
  refine (driveInv_refine ?_ _ _).evaluateCensus
  split
  · exact h.catchUp k _ _
  · unfold State.holdFromStatus
    generalize (if orderUnsetFlag b = true then none else some a.order) = o
    split
    · exact h.applyClaim _ _ _
    · exact h

theorem driveInv_setHoldsC {s : State} (h : s.DriveInv) (x : HoldTable) (e : x.records = s.holds.records) : (s.setHolds x).DriveInv :=
  h.setHolds x (HoldTable.isEmpty_congr e)

theorem driveInv_deliverHold {s : State} (h : s.DriveInv) (a b c) : (s.deliverHold a b c).DriveInv := by
  unfold State.deliverHold
  split
  · split
    · exact h.applyClaim _ _ _
    · split
      · exact driveInv_setHoldsC h _ rfl
      · exact h
  · exact h

theorem driveInv_deliverFree {s : State} (h : s.DriveInv) (a) : (s.deliverFree a).DriveInv := by
  unfold State.deliverFree
  split
  · split
    · exact h.removeHold _
    · exact driveInv_setHoldsC h _ rfl
  · exact h

theorem driveInv_deliverAsk {s : State} (h : s.DriveInv) (k : s.drive.state ≠ .offline) (a b c) : (s.deliverAsk a b c).DriveInv := by
  unfold State.deliverAsk
  split
  · exact h.setLine k _
  · exact h

theorem driveInv_ask {s : State} (h : s.DriveInv) (a b c d) : (s.receiveAsk a b c d).DriveInv :=
  driveInv_receiveGood h _ _ _ _ (fun _ hu k => driveInv_deliverAsk hu k _ _ _)

theorem driveInv_order {s : State} (h : s.DriveInv) (a b c d) : (s.receiveOrder a b c d).DriveInv :=
  driveInv_receiveGood h _ _ _ _ (fun _ hu k => hu.takeOrder k _ _ _ _)

theorem driveInv_takeCollected {s : State} (h : s.DriveInv) (l cs) : (s.takeCollected l cs).DriveInv := by
  unfold State.takeCollected; dsimp only
  split
  · exact driveInv_receiveGood h _ _ _ _ (fun _ hu k => driveInv_deliverStatus hu k _ _)
  · exact driveInv_order h _ _ _ _
  · exact driveInv_receiveGood h _ _ _ _ (fun _ hu _ => driveInv_deliverHold hu _ _ _)
  · exact driveInv_receiveGood h _ _ _ _ (fun _ hu _ => driveInv_deliverFree hu _)
  · exact driveInv_ask h _ _ _ _
  · exact driveInv_receiveGood h _ _ _ _ (fun _ hu _ => hu)

theorem exec_driveInv_idle {s t : State} (h : s.DriveInv) (l) (e : execReceiverIdle l s = .next t) : t.DriveInv := by
  unfold execReceiverIdle at e; dsimp only at e
  split at e
  · cases e; exact h
  · split at e
    · split at e <;> cases e
      · exact driveInv_dropFailed h _ _
      · exact driveInv_takeCollected h _ _
    · cases e; exact driveInv_modifyLine h _ _

/-! transmit -/

theorem driveInv_recordOwn {s : State} (h : s.DriveInv) (f) : (s.recordOwnFrame f).DriveInv := driveInv_setRoster h _

theorem exec_driveInv_start {s t : State} (h : s.DriveInv) (n) (e : execTransmissionStart n s = .next t) : t.DriveInv := by
  unfold execTransmissionStart at e
  split at e
  · cases e; exact h
  · split at e <;> cases e
    · rename_i k
      exact h.setLine (by have := k.1; simp [State.active] at this; exact this.2) _
    · exact h

theorem not_offline_of_sending {s : State} (h : s.DriveInv) {f} (k : s.line.transmitter = .sending f) : s.drive.state ≠ .offline := by
  intro q; have := (h.silent q).1; rw [k] at this; cases this

theorem exec_driveInv_complete {s t : State} (h : s.DriveInv) (e : execTransmissionComplete s = .next t) : t.DriveInv := by
  unfold execTransmissionComplete at e
  split at e
  · rename_i f k
    cases e
    have k' := not_offline_of_sending h k
    refine driveInv_recordOwn ?_ _
    exact (h.setLine k' (s.line.complete f s.config.reportPeriod)).of_same (.of_drive rfl rfl rfl rfl rfl rfl rfl rfl rfl rfl) rfl id rfl rfl (.of_ne k')
  · cases e; exact h
  · cases e; exact h

theorem exec_driveInv_clash {s t : State} (h : s.DriveInv) (e : execClash s = .next t) : t.DriveInv := by
  unfold execClash at e
  split at e
  · rename_i f k
    have k' := not_offline_of_sending h k
    dsimp only at e
    cases e
    split
    · exact (h.setLine k' _).positionConflict
    · exact h.setLine k' _
  · cases e; exact h
  · cases e; exact h

theorem exec_driveInv_seizeEnd {s t : State} (h : s.DriveInv) (e : execSeizeEnd s = .next t) : t.DriveInv := by
  unfold execSeizeEnd at e
  split at e
  · rename_i k
    cases e
    refine h.setLine ?_ _
    intro q; have := (h.silent q).1; rw [k] at this; cases this
  · cases e; exact h
  · cases e; exact h

theorem exec_driveInv_report {s t : State} (h : s.DriveInv) (e : execReportTimerExpiry s = .next t) : t.DriveInv := by
  unfold execReportTimerExpiry at e
  split at e <;> cases e
  · rename_i k
    have k' : s.drive.state ≠ .offline := fun q => by rw [(h.silent q).2.2.2.2] at k; cases k
    exact (h.setLine k' _).requestStatus k'
  · exact h

theorem exec_driveInv_discard {s t : State} (h : s.DriveInv) (e : execAnswerDiscard s = .next t) : t.DriveInv := by
  unfold execAnswerDiscard at e
  split at e
  · rename_i r k
    split at e <;> cases e
    · exact h.setLine (by intro q; have := (h.silent q).2.2.1; rw [k] at this; cases this) _
    · exact h
  · cases e; exact h

theorem exec_driveInv_wheelIn {s t : State} (h : s.DriveInv) (b) (e : execWheelInputChange b s = .next t) : t.DriveInv := by
  unfold execWheelInputChange at e
  split at e <;> cases e
  · exact h
  · exact driveInv_setStride h _ rfl rfl id

theorem exec_driveInv_filter {s t : State} (h : s.DriveInv) (e : execPulseFilterRelease s = .next t) : t.DriveInv := by
  unfold execPulseFilterRelease at e
  split at e <;> cases e
  · exact h
  · exact driveInv_setStride h _ rfl rfl id

theorem exec_driveInv_coast {s t : State} (h : s.DriveInv) (e : execCoastWindowExpiry s = .next t) : t.DriveInv := by
  unfold execCoastWindowExpiry at e
  split at e <;> cases e
  · exact driveInv_setStride h _ rfl rfl id
  · exact h

end Sys2Proof.Machine
end

