-- ==== Sys2Proof/Laws/Keep.lean ====
section
/-! SUPPORT. A relation between states that the elementary updates keep is kept by every command: the case split over the
commands, made once. -/

open Sys2Proof Sys2Proof.Machine Host

namespace Sys2Proof.Machine

set_option maxHeartbeats 1000000

/-- What a drive block set outside a transition may change: its direction and state stay, and no timer starts but the
lamp's of a station in OFFLINE with a cause. -/
structure State.DriveSteps (s : State) (d : DriveControl) : Prop where
  direction : d.direction = s.drive.direction
  state     : d.state = s.drive.state
  dwell     : d.dwellTimer ≠ none → s.drive.dwellTimer ≠ none
  blink     : d.blinkTimer ≠ none → s.drive.blinkTimer ≠ none ∨ s.drive.state = .offline ∧ s.loader.offlineCause ≠ none

/-- What a stride block set outside a transition and a stall may change: no pause and no coast window starts. -/
structure State.StrideSteps (s : State) (x : StrideMonitor) : Prop where
  retry : x.retryPause ≠ none → s.stride.retryPause ≠ none
  coast : x.coastWindow ≠ none → s.stride.coastWindow ≠ none
  on    : x.contactorOn = s.stride.contactorOn

/-- The lines and timers of the Sensor Port by its exchange state (R41, R43 to R45). -/
structure SensorPort.Coherent (p : SensorPort) : Prop where
  select0 : p.select0 = decide (p.exchange = .readyWait ∨ p.exchange = .shifting)
  select1 : p.select1 = decide (p.exchange = .configRead)
  clock   : p.clock = .running ↔ p.exchange = .shifting ∨ p.exchange = .configRead
  sample  : p.exchange = .stopped ∨ p.exchange = .configRead → p.sampleTimer = none
  ready   : p.readyTimer ≠ none → p.exchange = .readyWait

/-- The port after the configuration read: coherent, and never in CONFIG_READ. -/
def SensorPort.InService (p : SensorPort) : Prop := p.Coherent ∧ p.exchange ≠ .configRead

/-- What a command sets the port to: in service when it was. -/
def State.SensorSteps (s : State) (x : SensorPort) : Prop := s.sensor.InService → x.InService

theorem SensorPort.InService.congr {p x : SensorPort} (h : p.InService) (a : x.exchange = p.exchange)
    (b : x.select0 = p.select0) (c : x.select1 = p.select1) (d : x.clock = p.clock)
    (e : x.sampleTimer ≠ none → p.sampleTimer ≠ none) (f : x.readyTimer = p.readyTimer) : x.InService := by
  obtain ⟨⟨h1, h2, h3, h4, h5⟩, h6⟩ := h
  refine ⟨⟨by rw [a, b, h1], by rw [a, c, h2], by rw [a, d, h3], fun k => ?_, by rw [a, f]; exact h5⟩, by rw [a]; exact h6⟩
  by_contra n; exact e n (h4 (by rw [← a]; exact k))

theorem SensorPort.InService.rests {p : SensorPort} (h : p.InService) (o : Bool) : (p.endExchange o).InService := by
  obtain ⟨⟨h1, h2, h3, h4, h5⟩, h6⟩ := h
  have z : p.select1 = false := by rw [h2]; simpa using h6
  unfold SensorPort.endExchange
  cases o
  · refine ⟨⟨by simp, by simp [z], by simp, fun k => ?_, fun k => absurd rfl k⟩, by simp⟩
    rcases k with k | k <;> cases k
  · exact ⟨⟨by simp, by simp [z], by simp, fun k => rfl, fun k => absurd rfl k⟩, by simp⟩

/-- The wait ends and the shift begins (R44). -/
theorem SensorPort.InService.shifts {p : SensorPort} (h : p.InService) (k : p.exchange = .readyWait) (d r) :
    ({ p with exchange := .shifting, readyTimer := none, clock := .running, dataOut := d, readyPin := r }
      : SensorPort).InService := by
  obtain ⟨⟨h1, h2, h3, h4, h5⟩, h6⟩ := h
  refine ⟨⟨by simp [h1, k], by simp [h2, k], by simp, fun z => ?_, fun z => absurd rfl z⟩, by simp⟩
  rcases z with z | z <;> cases z

theorem State.beginExchange_steps (s : State) (r : Bool) : ∃ p, s.beginExchange r = s.setSensor p ∧ s.SensorSteps p := by
  unfold State.beginExchange; dsimp only
  split
  all_goals
    refine ⟨_, rfl, fun h => ?_⟩
    obtain ⟨⟨h1, h2, h3, h4, h5⟩, h6⟩ := h
    have z : s.sensor.select1 = false := by rw [h2]; simpa using h6
    refine ⟨⟨by simp, by simp [z], by simp, fun k => ?_, fun k => ?_⟩, by simp⟩
  · rcases k with k | k <;> cases k
  · exact absurd rfl k
  · rcases k with k | k <;> cases k
  · rfl

structure Keep (R : State → State → Prop) : Prop extends Quiet R where
  conflict : ∀ s, R s s.positionConflict
  writeOrder : ∀ s n a d p, R s (s.writeOrder n a d p)
  refuse : ∀ s, R s s.refuseOrder
  musterTimer : ∀ s t, (t ≠ none → s.orders.musterTimer ≠ none) → R s (s.setOrders { s.orders with musterTimer := t })
  holdCounts : ∀ s x, x.records = s.holds.records → R s (s.setHolds x)
  holdPut : ∀ s p r, s.HoldOk p r → R s (s.setHolds (s.holds.put p (some r)))
  holdDrop : ∀ s p, R s (s.setHolds (s.holds.put p none))
  sensor : ∀ s x, s.SensorSteps x → R s (s.setSensor x)
  stride : ∀ s x, s.StrideSteps x → R s (s.setStride x)
  drive : ∀ s d, s.DriveSteps d → d.rest = s.drive.rest → R s (s.setDrive d)
  localTime : ∀ s x, R s (s.setLocalTime x)
  sample : ∀ s b, -1500 ≤ b ∧ b ≤ 1500 → R s (s.setGovernor (s.governor.sample b s.drive.direction))
  empty : ∀ s, R s (s.setGovernor s.governor.emptied)
  anyLine : ∀ s x, R s (s.setLine x)
  announced : ∀ s b, R s (s.setClaim { s.claim with announced := b })
  heard : ∀ s (h : Header) (fill : RosterRecord → RosterRecord), h.source ≠ s.own → ¬ s.towers < h.source.toNat →
    (∀ r, (fill r).presence = r.presence ∧ (fill r).expected = r.expected) →
    R s (s.setRoster (s.roster.put h.source (fill ((s.roster.recordOf h.source).heard h.seq))))
  stranger : ∀ s p n x, s.towers < p.toNat
      → R s (s.setRoster { s.roster.put p { s.roster.recordOf p with accepted := n } with strangerTotal := x })
  totals : ∀ s x, x.records = s.roster.records → R s (s.setRoster x)
  aged : ∀ s p x a, p ≠ s.own → (s.roster.recordOf p).expected = true
      → R s (s.setRoster (s.roster.put p { s.roster.recordOf p with presence := x, age := a }))
  rosterTick : ∀ s, R s (s.setRoster (s.roster.tick s.own))
  ownFrame : ∀ s f, R s (s.recordOwnFrame f)

/-- One that also keeps the entry to DWELL and every change of the rest timer. -/
structure KeepAll (R : State → State → Prop) : Prop extends Keep R where
  dwell : ∀ s, R s (s.transition .dwell)
  anyDrive : ∀ s d, s.DriveSteps d → R s (s.setDrive d)
  anyStride : ∀ s x, R s (s.setStride x)
  anySensor : ∀ s x, R s (s.setSensor x)

variable {R : State → State → Prop}

namespace Keep

variable (q : Keep R) (s : State)

include q

theorem writeHold_kept p r (h : s.HoldOk p r) : R s (s.writeHold p r) := by
  unfold State.writeHold; dsimp only
  split
  · exact q.trans (q.holdPut s p r h) (q.settle _)
  · exact q.holdPut s p r h

theorem removeHold_kept p : R s (s.removeHold p) := by
  unfold State.removeHold
  split
  · exact q.refl s
  · dsimp only; split
    · exact q.trans (q.holdDrop s p) (q.settle _)
    · exact q.holdDrop s p

theorem applyClaim_kept p a b o (h : s.claimMatches p o = true) : R s (s.applyClaim p a b) := by
  unfold State.applyClaim; dsimp only
  split
  · rename_i k
    refine q.writeHold_kept s p _ ⟨?_, k.2, ?_, k.1⟩
    · unfold State.claimMatches at h; simp at h; exact h.1.1.1
    · unfold State.claimMatches at h; simp at h
      obtain ⟨⟨-, h1⟩, h2⟩ := h
      rw [h2] at h1
      unfold State.orderInForce at h1 ⊢
      split at h1
      · simp at h1
      · rename_i z; rw [if_neg z]
  · exact q.removeHold_kept s p

theorem settleAdopted_kept (hd : ∀ s, R s (s.transition .dwell)) : R s s.settleAdopted := by
  unfold State.settleAdopted
  split
  · exact q.settle s
  · split
    · exact hd s
    · split
      · exact q.enterMuster s
      · exact q.settle s

theorem adopt_kept (hd : ∀ s, R s (s.transition .dwell)) b n a d p : R s (s.adopt b n a d p) := by
  unfold State.adopt; dsimp only
  split
  · exact q.trans (q.trans (q.writeOrder s n a d p) (q.raiseHalt _ _ _)) (q.afterAdoption _)
  · refine q.trans (q.trans ?_ (q.settleAdopted_kept _ hd)) (q.afterAdoption _)
    split
    · exact q.trans (q.writeOrder s n a d p) (q.decideClear _)
    · exact q.writeOrder s n a d p

theorem takeOrder_kept (hd : ∀ s, R s (s.transition .dwell)) n a d p : R s (s.takeOrder n a d p) := by
  unfold State.takeOrder
  split
  · split
    · exact q.adopt_kept s hd _ _ _ _ _
    · exact q.refuse s
  · exact q.refuse s
  · exact q.refuse s

theorem catchUp_kept (hd : ∀ s, R s (s.transition .dwell)) n b : R s (s.catchUp n b) := by
  unfold State.catchUp
  split
  · exact q.refl s
  · split
    · split
      · exact q.adopt_kept s hd _ _ _ _ _
      · exact q.refuse s
      · exact q.refuse s
    · exact q.refl s

theorem begin_kept r : R s (s.beginExchange r) := by
  obtain ⟨p, e, h⟩ := s.beginExchange_steps r
  rw [e]; exact q.sensor s p h

theorem emptyWindow_kept : R s s.emptyWindow := q.trans (q.empty s) (q.leadReports _ _)

theorem sensorHalt_kept : R s s.sensorHalt := q.trans (q.empty s) (q.haltAfterWithdrawal _ _)

theorem takeSample_kept b (h : -1500 ≤ b ∧ b ≤ 1500) : R s (s.takeSample b) :=
    q.trans (q.sample s b h) (q.leadReports _ _)

theorem failed_kept : R s s.failedExchange := by
  refine q.trans (q.sensor s s.sensor.countFailure (fun h => h.congr rfl rfl rfl rfl id rfl))
    (?_ : R _ (State.failureConsequence (s.setSensor s.sensor.countFailure)))
  generalize s.setSensor s.sensor.countFailure = u
  unfold State.failureConsequence
  split
  · split
    · split
      · exact q.refl u
      · exact q.sensorHalt_kept u
    · split
      · exact q.trans (q.emptyWindow_kept u)
          (q.trans (q.sensor _ { u.emptyWindow.sensor with faultMark := true } (fun h => h.congr rfl rfl rfl rfl id rfl)) (q.reportSensor _))
      · exact q.sensorHalt_kept u
    · exact q.sensorHalt_kept u
  · split
    · exact q.refl u
    · exact q.emptyWindow_kept u
    · exact q.emptyWindow_kept u

theorem good_kept b (h : -1500 ≤ b ∧ b ≤ 1500) : R s (s.goodSample b) :=
  q.trans (q.takeSample_kept s b h) (q.trans (q.sensor _ { (s.takeSample b).sensor with
    consecutiveFailures := 0, faultMark := false } (fun h => h.congr rfl rfl rfl rfl id rfl)) (q.reportSensor _))

theorem finish_kept f n (hf : ∀ u, R u (f u)) : R s (s.finishExchange f n) := by
  unfold State.finishExchange
  split
  · exact q.sensor s _ (fun h => h.rests true)
  · dsimp only
    have := q.trans (q.sensor s (s.sensor.endExchange false) (fun h => h.rests false)) (hf _)
    split
    · exact q.trans this (q.begin_kept _ _)
    · exact this

theorem judge_kept w : R s (s.judgeWord w) := by
  unfold State.judgeWord; dsimp only
  split
  · exact q.failed_kept s
  · split
    · exact q.failed_kept s
    · rename_i k; exact q.good_kept s _ (by omega)

theorem modify_kept l f : R s (s.modifyLine l f) := q.anyLine s _

theorem receive_kept hd k fill deliver (hf : ∀ r, (fill r).presence = r.presence ∧ (fill r).expected = r.expected)
  (hdel : ∀ u, R u (deliver u)) : R s (s.receiveGood hd k fill deliver) := by
  unfold State.receiveGood
  split
  · exact q.refl s
  · split
    · exact q.modify_kept s _ _
    · dsimp only
      have h1 : R s (s.noteGood hd.line) := q.trans (q.modify_kept s _ _) (q.anyLine _ _)
      refine q.trans h1 ?_
      generalize s.noteGood hd.line = u
      split
      · unfold State.rosterTake; dsimp only
        split
        · exact q.conflict u
        · rename_i n1
          split
          · rename_i n2; exact q.stranger u _ _ _ n2
          · rename_i n2
            split
            · exact q.totals u _ rfl
            · split
              · exact q.totals u _ rfl
              · unfold State.acceptFrame; dsimp only
                refine q.trans (q.heard u hd fill n1 n2 hf) ?_
                split
                · exact hdel _
                · exact q.trans (q.evaluateCensus _) (hdel _)
      · exact q.refl u

theorem refine_kept a b : R s (s.refineOrigin a b) := by
  unfold State.refineOrigin; dsimp only
  split
  · split
    · exact q.halt s _
    · exact q.refl s
  · exact q.refl s

theorem deliverStatus_kept (hd : ∀ s, R s (s.transition .dwell)) a b : R s (s.deliverStatus a b) := by
  unfold State.deliverStatus; dsimp only
  refine q.trans (q.trans ?_ (q.refine_kept _ _ _)) (q.evaluateCensus _)
  split
  · exact q.catchUp_kept s hd _ _
  · unfold State.holdFromStatus
    generalize (if orderUnsetFlag b = true then none else some a.order) = o
    split
    · rename_i k; exact q.applyClaim_kept s _ _ _ o k.1
    · exact q.refl s

theorem deliverHold_kept a b c : R s (s.deliverHold a b c) := by
  unfold State.deliverHold
  split
  · rename_i k
    split
    · exact q.applyClaim_kept s _ _ _ _ k
    · split
      · exact q.holdCounts s _ rfl
      · exact q.refl s
  · exact q.refl s

theorem deliverFree_kept a : R s (s.deliverFree a) := by
  unfold State.deliverFree
  split
  · split
    · exact q.removeHold_kept s _
    · exact q.holdCounts s _ rfl
  · exact q.refl s

theorem deliverAsk_kept a b c : R s (s.deliverAsk a b c) := by
  unfold State.deliverAsk
  split
  · exact q.anyLine s _
  · exact q.refl s

theorem ask_kept a b c d : R s (s.receiveAsk a b c d) :=
  q.receive_kept s _ _ _ _ (fun _ => ⟨rfl, rfl⟩) (fun _ => q.deliverAsk_kept _ _ _ _)

theorem order_kept (hd : ∀ s, R s (s.transition .dwell)) a b c d : R s (s.receiveOrder a b c d) :=
  q.receive_kept s _ _ _ _ (fun _ => ⟨rfl, rfl⟩) (fun _ => q.takeOrder_kept _ hd _ _ _ _)

theorem tick_kept (ad : ∀ s d, s.DriveSteps d → R s (s.setDrive d)) : R s s.tick := by
  have h1 := q.localTime s (s.localTime + 1)
  have h2 := q.trans h1 (ad _ s.drive.tick ⟨rfl, rfl, countDown_ne.mp, fun h => .inl (countDown_ne.mp h)⟩)
  have h3 := q.trans h2 (q.sensor _ { s.sensor with sampleTimer := countDown s.sensor.sampleTimer }
    (fun h => h.congr rfl rfl rfl rfl countDown_ne.mp rfl))
  have h4 := q.trans h3 (q.stride _ (s.stride.tick s.drive.runOutput) ⟨countDown_ne.mp, countDown_ne.mp, rfl⟩)
  have h5 := q.trans h4 (q.pace _ (s.pace.tick s.pacePeriod) (by unfold PaceTimer.tick; split <;> rfl)
    (fun _ h => by unfold PaceTimer.tick; rw [if_neg (by simpa using h)]; rfl))
  have h6 : R s (((((((s.setLocalTime (s.localTime + 1)).setDrive s.drive.tick).setSensor
    { s.sensor with sampleTimer := countDown s.sensor.sampleTimer }).setStride
      (s.stride.tick s.drive.runOutput)).setPace (s.pace.tick s.pacePeriod)).setRoster
        (if s.active then s.roster.tick s.own else s.roster))) := by
    refine q.trans h5 ?_
    split
    · exact q.rosterTick _
    · exact q.totals _ _ rfl
  have h7 := q.trans h6 (q.musterTimer _ (countDown s.orders.musterTimer) countDown_ne.mp)
  have h8 := q.trans h7 (q.halt _ s.halt.tick)
  exact q.trans h8 (q.anyLine _ s.line.tick)

theorem retry_kept (st : ∀ s x, R s (s.setStride x)) : R s s.retryStall := by
  unfold State.retryStall
  refine q.trans (b := (s.setStride (s.stride.pause s.config)).enterStalled) ?_ (q.reportStall _)
  refine q.trans (b := (s.setStride (s.stride.pause s.config))) (st s _) ?_
  unfold State.enterStalled
  split
  · exact q.trans (q.transition _ .stalled (by decide) (fun e => nomatch e)) (q.followingEntry _)
  · exact q.settle _

theorem stall_kept (st : ∀ s x, R s (s.setStride x)) : R s s.takeStall := by
  unfold State.takeStall; dsimp only
  refine q.trans (st s { s.stride with stallTimer := none, stallEvents := satInc s.stride.stallEvents }) ?_
  generalize s.setStride { s.stride with stallTimer := none, stallEvents := satInc s.stride.stallEvents } = u
  split
  · refine q.trans (st u { u.stride with consecutiveStalls := u.stride.consecutiveStalls + 1 }) ?_
    generalize u.setStride { u.stride with consecutiveStalls := u.stride.consecutiveStalls + 1 } = v
    split
    · exact q.retry_kept v st
    · exact q.raiseHalt v _ _
  · exact q.raiseHalt u _ _
  · exact q.refl u

theorem hear_kept l : R s (s.setLine (s.line.hearFrame l)) := q.anyLine s _

theorem collected_kept (hd : ∀ s, R s (s.transition .dwell)) l cs : R s (s.takeCollected l cs) := by
  unfold State.takeCollected; dsimp only
  split
  · exact q.receive_kept s _ _ _ _ (fun _ => ⟨rfl, rfl⟩) (fun _ => q.deliverStatus_kept _ hd _ _)
  · exact q.order_kept s hd _ _ _ _
  · exact q.receive_kept s _ _ _ _ (fun _ => ⟨rfl, rfl⟩) (fun _ => q.deliverHold_kept _ _ _ _)
  · exact q.receive_kept s _ _ _ _ (fun _ => ⟨rfl, rfl⟩) (fun _ => q.deliverFree_kept _ _)
  · exact q.ask_kept s _ _ _ _
  · exact q.receive_kept s _ _ _ _ (fun _ => ⟨rfl, rfl⟩) (fun u => q.refl u)

/-- ordinary commands -/
theorem exec_keep {t : State} (i : Instr) (e : exec i s = .next t)
   (hi : i ≠ .powerOnReset ∧ i ≠ .resetPinAssert ∧ (∀ p, i ≠ .powerOnResetEnd p) ∧ (∀ p, i ≠ .resetPinRelease p)
       ∧ (∀ a b, i ≠ .configReadComplete a b))
   (ad : i = .contactorRestEnd ∨ i = .localTimeTick → ∀ s d, s.DriveSteps d → R s (s.setDrive d))
   (sl : i = .stallTimerExpiry → R s s.takeStall)
   (hd : (∃ h b, i = .statusFrame h b) ∨ (∃ h k, frameOf i = some (h, k) ∧ k = .order) ∨ (∃ l, i = .receiverIdle l) →
       ∀ s, R s (s.transition .dwell)) : R s t := by
  cases i <;> simp only [exec] at e
  case powerOnReset => exact absurd rfl hi.1
  case resetPinAssert => exact absurd rfl hi.2.1
  case powerOnResetEnd => exact absurd rfl (hi.2.2.1 _)
  case resetPinRelease => exact absurd rfl (hi.2.2.2.1 _)
  case configReadComplete => exact absurd rfl (hi.2.2.2.2 _ _)
  case contactorRestEnd =>
    unfold execContactorRestEnd at e; split at e <;> cases e
    · exact q.trans (b := s.setDrive { s.drive with rest := .rested }) (ad (.inl rfl) s _ ⟨rfl, rfl, id, .inl⟩) (q.settle _)
    · exact q.refl s
  case dwellTimerExpiry =>
    unfold execDwellTimerExpiry at e; split at e
    · dsimp only at e; split at e <;> cases e
      · exact q.trans (b := s.setDrive { s.drive with dwellTimer := none })
          (q.drive s _ ⟨rfl, rfl, fun h => absurd rfl h, .inl⟩ rfl) (q.enterMuster _)
      · exact q.trans (b := s.setDrive { s.drive with dwellTimer := none })
          (q.drive s _ ⟨rfl, rfl, fun h => absurd rfl h, .inl⟩ rfl) (q.settle _)
    · cases e; exact q.refl s
  case lampBlinkStep =>
    unfold execLampBlinkStep at e; split at e
    · split at e <;> cases e
      · rename_i o _ c k; exact q.drive s _ ⟨rfl, rfl, id, fun _ => .inr ⟨o.1, by rw [k]; exact nofun⟩⟩ rfl
      · exact q.refl s
    · cases e; exact q.refl s
  case localTimeTick =>
    unfold execLocalTimeTick at e; split at e <;> cases e
    · exact q.refl s
    · exact q.tick_kept s (ad (.inr rfl))
  case sampleTimerExpiry =>
    unfold execSampleTimerExpiry at e; split at e
    · split at e <;> cases e
      · exact q.begin_kept s _
      · exact q.sensor s _ (fun h => h.congr rfl rfl rfl rfl (fun k => absurd rfl k) rfl)
      · exact q.sensor s _ (fun h => h.congr rfl rfl rfl rfl (fun k => absurd rfl k) rfl)
      · exact q.refl s
      · exact q.refl s
    · cases e; exact q.refl s
  case readyAssert =>
    unfold execReadyAssert at e; split at e <;> cases e
    · rename_i k; exact q.sensor s _ (fun h => h.shifts k _ _)
    · exact q.refl s
  case readyTimeout =>
    unfold execReadyTimeout at e; split at e <;> cases e
    · exact q.finish_kept s _ _ (fun u => q.failed_kept u)
    · exact q.refl s
  case short =>
    unfold execShort at e; split at e <;> cases e
    · exact q.trans (q.sensor s { s.sensor with readyPin := !s.config.readyAsserted true } (fun h => h.congr rfl rfl rfl rfl id rfl))
        (q.finish_kept _ _ _ (fun u => q.failed_kept u))
    · exact q.refl s
  case shiftComplete w _ =>
    unfold execShiftComplete at e; split at e <;> cases e
    · exact q.trans (q.sensor s { s.sensor with receivedWord := some w } (fun h => h.congr rfl rfl rfl rfl id rfl))
        (q.finish_kept _ _ _ (fun u => q.judge_kept u w))
    · exact q.refl s
  case wheelInputChange =>
    unfold execWheelInputChange at e; split at e <;> cases e
    · exact q.refl s
    · exact q.stride s _ ⟨id, id, rfl⟩
  case wheelPulse =>
    unfold execWheelPulse at e; split at e
    · cases e; exact q.refl s
    · dsimp only at e
      split at e <;> cases e
      · refine q.trans (q.stride s (s.stride.acceptPulse s.drive.direction) ⟨id, id, rfl⟩) ?_
        generalize s.setStride (s.stride.acceptPulse s.drive.direction) = u
        split
        · unfold State.pulseOn; dsimp only; split
          · refine q.trans (q.stride u (u.stride.segmentPulse u.config) ⟨id, id, rfl⟩) ?_
            generalize u.setStride (u.stride.segmentPulse u.config) = v
            exact q.trans (q.stride v { v.stride with consecutiveStalls := 0, stallMark := false } ⟨id, id, rfl⟩)
              (q.reportStall _)
          · exact q.stride u _ ⟨id, id, rfl⟩
        · unfold State.pulseOff; split
          · exact q.refl u
          · split
            · exact q.stride u _ ⟨id, id, rfl⟩
            · unfold State.creep; dsimp only; split
              · exact q.trans (q.stride u u.stride.creepPulse ⟨id, id, rfl⟩) (q.raiseHalt _ _ _)
              · exact q.stride u _ ⟨id, id, rfl⟩
      · exact q.stride s _ ⟨id, id, rfl⟩
  case pulseFilterRelease =>
    unfold execPulseFilterRelease at e; split at e <;> cases e
    · exact q.refl s
    · exact q.stride s _ ⟨id, id, rfl⟩
  case stallTimerExpiry =>
    unfold execStallTimerExpiry at e; split at e <;> cases e
    · exact sl rfl
    · exact q.refl s
  case retryPauseEnd =>
    unfold execRetryPauseEnd at e; split at e <;> cases e
    · exact q.trans (q.stride s { s.stride with retryPause := none } ⟨fun h => absurd rfl h, id, rfl⟩) (q.settle _)
    · exact q.refl s
  case coastWindowExpiry =>
    unfold execCoastWindowExpiry at e; split at e <;> cases e
    · exact q.stride s _ ⟨id, fun h => absurd rfl h, rfl⟩
    · exact q.refl s
  case endOfOnPart =>
    unfold execEndOfOnPart at e; split at e
    · dsimp only at e; split at e <;> cases e
      · rename_i k _; exact q.trans (b := s.setPace { s.pace with request := false }) (q.pace s _ rfl (fun _ h => absurd (k.1.symm.trans h) (by decide))) (q.settle _)
      · rename_i k _; exact q.pace s _ rfl (fun _ h => absurd (k.1.symm.trans h) (by decide))
    · cases e; exact q.refl s
  case endOfPeriod =>
    unfold execEndOfPeriod at e; split at e
    · dsimp only at e; split at e <;> cases e
      · rename_i k _; exact q.pace s _ rfl (fun _ h => absurd (k.1.symm.trans h) (by decide))
      · rename_i k _; exact q.trans (b := s.startPeriod) (q.pace s _ rfl (fun _ h => absurd (k.1.symm.trans h) (by decide))) (q.settle _)
    · cases e; exact q.refl s
  case staleAgePassed =>
    unfold execStaleAgePassed at e; dsimp only at e; split at e <;> cases e
    · rename_i k; exact q.trans (q.aged s _ _ _ k.2.1 k.2.2.1) (q.evaluateCensus _)
    · exact q.refl s
  case lostLimitPassed =>
    unfold execLostLimitPassed at e; dsimp only at e; split at e <;> cases e
    · rename_i k; exact q.trans (q.trans (q.aged s _ _ _ k.2.1 k.2.2.1) (q.evaluateCensus _)) (q.raiseHalt _ _ _)
    · exact q.refl s
  case musterTimerExpiry =>
    unfold execMusterTimerExpiry at e; split at e <;> cases e
    · exact q.trans (q.census s none false none (fun h => nomatch h) (fun h => absurd rfl h)) (q.raiseHalt _ _ _)
    · exact q.refl s
  case loopSenseChange =>
    unfold execLoopSenseChange at e; split at e <;> cases e
    · exact q.refl s
    · exact q.halt s _
  case loopSenseSettled =>
    unfold execLoopSenseSettled at e; split at e
    · dsimp only at e; split at e <;> cases e
      · refine q.trans (q.halt s s.halt.settleSense) ?_
        unfold State.reportSense; dsimp only; split
        · exact q.evaluateCensus _
        · exact q.trans (q.evaluateCensus _) (q.raiseHalt _ _ _)
      · exact q.halt s _
    · cases e; exact q.refl s
  case characterReceived =>
    unfold execCharacterReceived at e; split at e <;> cases e
    · exact q.modify_kept s _ _
    · exact q.refl s
  case receiverIdle =>
    unfold execReceiverIdle at e; dsimp only at e; split at e
    · cases e; exact q.refl s
    · split at e
      · split at e <;> cases e
        · exact q.trans (q.modify_kept s _ _) (q.hear_kept _ _)
        · exact q.collected_kept s (hd (.inr (.inr ⟨_, rfl⟩))) _ _
      · cases e; exact q.modify_kept s _ _
  case frameCheckFailed =>
    unfold execFrameCheckFailed at e; dsimp only at e
    split at e
    · split at e
      · cases e; exact q.modify_kept s _ _
      · split at e <;> cases e
        · exact q.refl s
        · exact q.trans (q.modify_kept s _ _) (q.hear_kept _ _)
    · cases e; exact q.refl s
  case statusFrame => cases e; exact q.receive_kept s _ _ _ _ (fun _ => ⟨rfl, rfl⟩) (fun _ => q.deliverStatus_kept _ (hd (.inl ⟨_, _, rfl⟩)) _ _)
  case runOrder => cases e; exact q.order_kept s (hd (.inr (.inl ⟨_, _, rfl, rfl⟩))) _ _ _ _
  case stopOrder => cases e; exact q.order_kept s (hd (.inr (.inl ⟨_, _, rfl, rfl⟩))) _ _ _ _
  case clearOrder => cases e; exact q.order_kept s (hd (.inr (.inl ⟨_, _, rfl, rfl⟩))) _ _ _ _
  case orderUndefinedAction => cases e; exact q.order_kept s (hd (.inr (.inl ⟨_, _, rfl, rfl⟩))) _ _ _ _
  case holdFrame => cases e; exact q.receive_kept s _ _ _ _ (fun _ => ⟨rfl, rfl⟩) (fun _ => q.deliverHold_kept _ _ _ _)
  case freeFrame => cases e; exact q.receive_kept s _ _ _ _ (fun _ => ⟨rfl, rfl⟩) (fun _ => q.deliverFree_kept _ _)
  case answerFrame => cases e; exact q.receive_kept s _ _ _ _ (fun _ => ⟨rfl, rfl⟩) (fun u => q.refl u)
  case reportTimerExpiry =>
    unfold execReportTimerExpiry at e; split at e <;> cases e
    · exact q.trans (q.anyLine s _) (q.anyLine _ _)
    · exact q.refl s
  case transmissionStart =>
    unfold execTransmissionStart at e; split at e
    · cases e; exact q.refl s
    · split at e <;> cases e
      · exact q.anyLine s _
      · exact q.refl s
  case transmissionComplete =>
    unfold execTransmissionComplete at e; split at e
    · cases e; dsimp only; exact q.trans (q.trans (q.anyLine s _) (q.announced _ _)) (q.ownFrame _ _)
    · cases e; exact q.refl s
    · cases e; exact q.refl s
  case clash =>
    unfold execClash at e; split at e
    · dsimp only at e; cases e
      split
      · exact q.trans (q.anyLine s _) (q.conflict _)
      · exact q.anyLine s _
    · cases e; exact q.refl s
    · cases e; exact q.refl s
  case quietTimerExpiry =>
    unfold execQuietTimerExpiry at e; dsimp only at e; split at e
    · split at e
      · split at e <;> cases e <;> exact q.trans (q.modify_kept s _ _) (q.anyLine _ _)
      · cases e; exact q.modify_kept s _ _
    · cases e; exact q.refl s
  case seizeDetected =>
    unfold execSeizeDetected at e; dsimp only at e; split at e
    · split at e <;> cases e
      · exact q.trans (q.modify_kept s _ _) (q.raiseHalt _ _ _)
      · exact q.modify_kept s _ _
    · cases e; exact q.refl s
  case seizeEnd =>
    unfold execSeizeEnd at e; split at e <;> cases e
    · exact q.anyLine s _
    · exact q.refl s
    · exact q.refl s
  case answerDiscard =>
    unfold execAnswerDiscard at e; split at e
    · split at e <;> cases e
      · exact q.anyLine s _
      · exact q.refl s
    · cases e; exact q.refl s
  all_goals (cases e; exact q.ask_kept s _ _ _ _)

end Keep

theorem KeepAll.exec_keep (q : KeepAll R) (s : State) {t : State} (i : Instr) (e : exec i s = .next t)
   (hi : i ≠ .powerOnReset ∧ i ≠ .resetPinAssert ∧ (∀ p, i ≠ .powerOnResetEnd p) ∧ (∀ p, i ≠ .resetPinRelease p)
       ∧ (∀ a b, i ≠ .configReadComplete a b)) : R s t :=
  q.toKeep.exec_keep s i e hi (fun _ => q.anyDrive) (fun _ => q.stall_kept s q.anyStride) (fun _ => q.dwell)

end Sys2Proof.Machine
end

