-- ==== Sys2Proof/Laws/BlockFacts.lean ====
section
/-! SUPPORT. The standing facts of the governor, the hold set, the claim and the roster as relations that every command keeps, and
the time before the checks. -/

open Sys2Proof Sys2Proof.Machine Host

namespace Sys2Proof.Machine

set_option maxHeartbeats 1000000

/-- generic lifting -/
def KeptAfterChecks (P : State → Prop) (s t : State) : Prop := P s ∧ s.loader.state = .passed → P t
    ∧ t.loader.state = .passed

/-- reads only governor, direction, loader -/
theorem LeadInv.congr {s t : State} (h : s.LeadInv) (g : t.governor = s.governor) (d : t.drive.direction = s.drive.direction) (l : t.loader.state = s.loader.state) (c : t.loader.config = s.loader.config) : t.LeadInv := by
  constructor
  · have := h.lead; unfold State.LeadOk at *; rw [g, d]; exact this
  · rw [g]; exact h.count
  · rw [g]; exact h.bends
  · rw [g, l]; exact h.early
  · have := h.loaded; unfold State.config at *; rw [g, l, c]; exact this

/-- Table 2-4 as a list. -/
theorem hysteresisValue_eq (code : Byte) : hysteresisValue code =
    [5, 10, 15, 20, 25, 30, 40, 50, 60, 70, 80, 90, 100, 120, 140, 160].getD code.toNat 160 := by
  unfold hysteresisValue; rcases code.toNat with _ | _ | _ | _ | _ | _ | _ | _ | _ | _ | _ | _ | _ | _ | _ | _ | n <;> rfl

/-- Table 2-1 as a list. -/
theorem windowSize_eq (code : Byte) : windowSize code = [1, 2, 4, 8].getD code.toNat 8 := by
  unfold windowSize; rcases code.toNat with _ | _ | _ | _ | n <;> rfl

/-- Table 2-3 and R30. -/
theorem levelSet_eq (c : ConfigRecord) : c.levelSet =
    if c.levelTable = 0 then { stop := 10, start := 40, resume := 80, hold := 150, halt := 400 }
    else if c.levelTable = 1 then { stop := 20, start := 60, resume := 120, hold := 200, halt := 500 }
    else if c.levelTable = 2 then { stop := 30, start := 100, resume := 180, hold := 300, halt := 700 }
    else { stop := c.startLevelD.toNat - hysteresisValue c.hysteresisCode, start := c.startLevelD.toNat,
           resume := c.holdLevelD.toNat - hysteresisValue c.hysteresisCode, hold := c.holdLevelD.toNat,
           halt := c.haltLevelD.toNat } := by
  have h (n : Nat) : c.levelTable.toNat = n → n < 256 → c.levelTable = BitVec.ofNat 8 n := fun h k =>
    BitVec.eq_of_toNat_eq (by rw [h, BitVec.toNat_ofNat]; omega)
  unfold ConfigRecord.levelSet
  split
  · rename_i k; rw [h 0 k (by omega)]; rfl
  · rename_i k; rw [h 1 k (by omega)]; rfl
  · rename_i k; rw [h 2 k (by omega)]; rfl
  · rename_i k0 k1 k2
    rw [if_neg (fun k => k0 (by rw [k]; rfl)), if_neg (fun k => k1 (by rw [k]; rfl)), if_neg (fun k => k2 (by rw [k]; rfl))]

theorem windowSize_pos c : 0 < windowSize c := by unfold windowSize; split <;> omega

theorem LeadInv.roster {s : State} (h : s.LeadInv) (x) : (s.setRoster x).LeadInv := LeadInv.congr h rfl rfl rfl rfl

set_option maxHeartbeats 4000000 in
theorem lead_keep : KeepAll (KeptAfterChecks State.LeadInv) where
  refl _ h := h
  trans h k x := k (h x)
  halt _ _ h := ⟨LeadInv.congr h.1 rfl rfl rfl rfl, h.2⟩
  claim _ _ _ _ h := ⟨LeadInv.congr h.1 rfl rfl rfl rfl, h.2⟩
  emptied _ h := ⟨LeadInv.congr h.1 rfl rfl rfl rfl, h.2⟩
  line _ _ _ h := ⟨LeadInv.congr h.1 rfl rfl rfl rfl, h.2⟩
  pace _ _ _ _ h := ⟨LeadInv.congr h.1 rfl rfl rfl rfl, h.2⟩
  choices _ _ h := ⟨LeadInv.congr h.1 rfl rfl rfl rfl, h.2⟩
  census _ _ _ _ _ _ h := ⟨LeadInv.congr h.1 rfl rfl rfl rfl, h.2⟩
  transition s d n _ h := ⟨LeadInv.congr h.1 (by rw [State.transition_governor, if_neg n]) (by rw [State.transition_direction, if_neg n]) (by simp) (by simp), by simpa using h.2⟩
  dwell s h := by
    refine ⟨?_, by simpa using h.2⟩
    constructor
    · unfold State.LeadOk; rw [State.transition_governor, if_pos rfl]; rfl
    · rw [State.transition_governor, if_pos rfl]; exact Nat.zero_le _
    · rw [State.transition_governor, if_pos rfl]; intro b hb; cases hb
    · rw [State.transition_governor, if_pos rfl]; intro; rfl
    · have := h.1.loaded
      rw [State.transition_governor, if_pos rfl]; unfold State.config at *
      simpa using this
  conflict s h := by
    unfold State.positionConflict; split
    · exact h
    · exact ⟨LeadInv.congr h.1 (by rw [State.transition_governor, if_neg (by decide)]; rfl) (by rw [State.transition_direction, if_neg (by decide)]; rfl) (by simp [State.setLoader]) (by simp [State.setLoader]), by simpa using h.2⟩
  writeOrder s n a d p h := by
    unfold State.writeOrder; dsimp only; split
    · exact ⟨LeadInv.congr h.1 rfl rfl rfl rfl, h.2⟩
    · exact ⟨LeadInv.congr h.1 rfl rfl rfl rfl, h.2⟩
  refuse _ h := ⟨LeadInv.congr h.1 rfl rfl rfl rfl, h.2⟩
  musterTimer _ _ _ h := ⟨LeadInv.congr h.1 rfl rfl rfl rfl, h.2⟩
  holdCounts _ _ _ h := ⟨LeadInv.congr h.1 rfl rfl rfl rfl, h.2⟩
  holdPut _ _ _ _ h := ⟨LeadInv.congr h.1 rfl rfl rfl rfl, h.2⟩
  holdDrop _ _ h := ⟨LeadInv.congr h.1 rfl rfl rfl rfl, h.2⟩
  sensor _ _ _ h := ⟨LeadInv.congr h.1 rfl rfl rfl rfl, h.2⟩
  anySensor _ _ h := ⟨LeadInv.congr h.1 rfl rfl rfl rfl, h.2⟩
  stride _ _ _ h := ⟨LeadInv.congr h.1 rfl rfl rfl rfl, h.2⟩
  anyStride _ _ h := ⟨LeadInv.congr h.1 rfl rfl rfl rfl, h.2⟩
  anyDrive _ _ e h := ⟨LeadInv.congr h.1 rfl e.direction rfl rfl, h.2⟩
  drive _ _ e _ h := ⟨LeadInv.congr h.1 rfl e.direction rfl rfl, h.2⟩
  localTime _ _ h := ⟨LeadInv.congr h.1 rfl rfl rfl rfl, h.2⟩
  sample s b hb h := by
    refine ⟨?_, h.2⟩
    have hs := (h.1.loaded h.2).1
    have hp := windowSize_pos s.config.windowCode
    have key : (s.governor.sample b s.drive.direction).window = joinWindow s.governor.size s.governor.window b
        ∧ (s.governor.sample b s.drive.direction).lead = leadOf (joinWindow s.governor.size s.governor.window b) s.drive.direction ∧ (s.governor.sample b s.drive.direction).size = s.governor.size ∧ (s.governor.sample b s.drive.direction).levels = s.governor.levels := by
      unfold Governor.sample Governor.judge; dsimp only; split
      · rename_i e; rw [e]; exact ⟨rfl, rfl, rfl, rfl⟩
      · rename_i e; rw [e]; exact ⟨rfl, rfl, rfl, rfl⟩
    constructor
    · show _ = leadOf (s.governor.sample b s.drive.direction).window s.drive.direction
      rw [key.1]; exact key.2.1
    · show (s.governor.sample b s.drive.direction).window.length ≤ (s.governor.sample b s.drive.direction).size
      rw [key.1, key.2.2.1]
      have := h.1.count
      unfold joinWindow; split
      · simp; omega
      · simp; omega
    · show ∀ x ∈ (s.governor.sample b s.drive.direction).window, _
      rw [key.1]
      intro x hx
      unfold joinWindow at hx
      split at hx
      · rw [List.mem_append] at hx
        rcases hx with hx | hx
        · exact h.1.bends x hx
        · rw [List.mem_singleton.1 hx]; exact hb
      · rw [List.mem_append] at hx
        rcases hx with hx | hx
        · exact h.1.bends x (List.mem_of_mem_tail hx)
        · rw [List.mem_singleton.1 hx]; exact hb
    · intro k; exact absurd h.2 k
    · intro k
      show (s.governor.sample b s.drive.direction).size = _ ∧ (s.governor.sample b s.drive.direction).levels = _
      rw [key.2.2.1, key.2.2.2]; exact h.1.loaded k
  empty s h := by
    refine ⟨?_, h.2⟩
    constructor
    · rfl
    · exact Nat.zero_le _
    · intro b hb; cases hb
    · intro; rfl
    · exact h.1.loaded
  anyLine _ _ h := ⟨LeadInv.congr h.1 rfl rfl rfl rfl, h.2⟩
  announced _ _ h := ⟨LeadInv.congr h.1 rfl rfl rfl rfl, h.2⟩
  heard _ _ _ _ _ _ h := ⟨LeadInv.congr h.1 rfl rfl rfl rfl, h.2⟩
  stranger _ _ _ _ _ h := ⟨LeadInv.congr h.1 rfl rfl rfl rfl, h.2⟩
  totals _ _ _ h := ⟨LeadInv.congr h.1 rfl rfl rfl rfl, h.2⟩
  aged _ _ _ _ _ _ h := ⟨LeadInv.congr h.1 rfl rfl rfl rfl, h.2⟩
  rosterTick s h := by
    generalize s.roster.tick s.own = x
    exact ⟨LeadInv.roster h.1 x, h.2⟩
  ownFrame _ _ h := ⟨LeadInv.congr h.1 rfl rfl rfl rfl, h.2⟩

theorem HoldInv.congr {s t : State} (h : s.HoldInv) (a : t.holds.records = s.holds.records) (b : t.orders.unset = s.orders.unset) (c : t.orders.number = s.orders.number) (d : t.loader = s.loader) (e : t.resets = s.resets) : t.HoldInv :=
  h.of_from ⟨.inl a, b, c, d, e⟩

theorem holdInv_emptied {s t : State} (h : s.HoldInv) (a : t.holds.records = Vector.replicate 32 none) (d : t.loader.state = s.loader.state) (e : t.resets = s.resets) : t.HoldInv := by
  refine ⟨fun p x k => ?_, fun _ => a, fun k => ?_⟩
  · exfalso
    have : t.holds.recordOf p = none := by simp [HoldTable.recordOf, a, Vector.get_eq_getElem]
    rw [this] at k; cases k
  · rw [d]; apply h.resets; simpa only [State.inReset, e] using k

theorem orders_transition (s : State) d : (s.transition d).orders.unset = s.orders.unset
    ∧ (s.transition d).orders.number = s.orders.number := by
    have e : (s.transition d).orders = _ := State.transition_orders s d
    constructor <;> rw [e] <;> split_ifs <;> rfl

theorem holdInv_transition {s : State} (h : s.HoldInv) d : (s.transition d).HoldInv := by
  refine h.of_from ⟨?_, (orders_transition s d).1, (orders_transition s d).2, by simp, by simp⟩
  rw [State.transition_holds]; split
  · exact .inr rfl
  · exact .inl rfl

theorem HoldInv.roster {s : State} (h : s.HoldInv) (x) : (s.setRoster x).HoldInv :=
    HoldInv.congr h rfl rfl rfl rfl rfl

theorem hold_keep : KeepAll (KeptAfterChecks State.HoldInv) where
  refl _ h := h
  trans h k x := k (h x)
  halt _ _ h := ⟨HoldInv.congr h.1 rfl rfl rfl rfl rfl, h.2⟩
  claim _ _ _ _ h := ⟨HoldInv.congr h.1 rfl rfl rfl rfl rfl, h.2⟩
  emptied _ h := ⟨HoldInv.congr h.1 rfl rfl rfl rfl rfl, h.2⟩
  line _ _ _ h := ⟨HoldInv.congr h.1 rfl rfl rfl rfl rfl, h.2⟩
  pace _ _ _ _ h := ⟨HoldInv.congr h.1 rfl rfl rfl rfl rfl, h.2⟩
  choices _ _ h := ⟨HoldInv.congr h.1 rfl rfl rfl rfl rfl, h.2⟩
  census _ _ _ _ _ _ h := ⟨HoldInv.congr h.1 rfl rfl rfl rfl rfl, h.2⟩
  transition s d n _ h := ⟨holdInv_transition h.1 d, by simpa using h.2⟩
  dwell s h := ⟨holdInv_transition h.1 _, by simpa using h.2⟩
  conflict s h := by
    unfold State.positionConflict; split
    · exact h
    · refine ⟨holdInv_emptied h.1 ?_ ?_ ?_, by simpa using h.2⟩
      · rw [State.transition_holds, if_pos (by decide)]
      · simp [State.setLoader]
      · simp [State.setLoader]
  writeOrder s n a d p h := by
    unfold State.writeOrder; dsimp only; split
    · exact ⟨holdInv_emptied h.1 rfl rfl rfl, h.2⟩
    · exact ⟨holdInv_emptied h.1 rfl rfl rfl, h.2⟩
  refuse _ h := ⟨HoldInv.congr h.1 rfl rfl rfl rfl rfl, h.2⟩
  musterTimer _ _ _ h := ⟨HoldInv.congr h.1 rfl rfl rfl rfl rfl, h.2⟩
  holdCounts _ _ e h := ⟨HoldInv.congr h.1 e rfl rfl rfl rfl, h.2⟩
  holdPut s p r k h := by
    refine ⟨⟨fun q x e => ?_, fun z => absurd h.2 z, h.1.resets⟩, h.2⟩
    have e' : (s.holds.put p (some r)).recordOf q = some x := e
    rw [HoldTable.recordOf_put] at e'
    split at e'
    · rename_i z; cases e'; subst z; exact k
    · exact h.1.records q x e'
  holdDrop s p h := by
    refine ⟨⟨fun q x e => ?_, fun z => absurd h.2 z, h.1.resets⟩, h.2⟩
    have e' : (s.holds.put p none).recordOf q = some x := e
    rw [HoldTable.recordOf_put] at e'
    split at e'
    · cases e'
    · exact h.1.records q x e'
  sensor _ _ _ h := ⟨HoldInv.congr h.1 rfl rfl rfl rfl rfl, h.2⟩
  anySensor _ _ h := ⟨HoldInv.congr h.1 rfl rfl rfl rfl rfl, h.2⟩
  stride _ _ _ h := ⟨HoldInv.congr h.1 rfl rfl rfl rfl rfl, h.2⟩
  anyStride _ _ h := ⟨HoldInv.congr h.1 rfl rfl rfl rfl rfl, h.2⟩
  anyDrive _ _ e h := ⟨HoldInv.congr h.1 rfl rfl rfl rfl rfl, h.2⟩
  drive _ _ e _ h := ⟨HoldInv.congr h.1 rfl rfl rfl rfl rfl, h.2⟩
  localTime _ _ h := ⟨HoldInv.congr h.1 rfl rfl rfl rfl rfl, h.2⟩
  sample s b hb h := ⟨HoldInv.congr h.1 rfl rfl rfl rfl rfl, h.2⟩
  empty s h := ⟨HoldInv.congr h.1 rfl rfl rfl rfl rfl, h.2⟩
  anyLine _ _ h := ⟨HoldInv.congr h.1 rfl rfl rfl rfl rfl, h.2⟩
  announced _ _ h := ⟨HoldInv.congr h.1 rfl rfl rfl rfl rfl, h.2⟩
  heard _ _ _ _ _ _ h := ⟨HoldInv.congr h.1 rfl rfl rfl rfl rfl, h.2⟩
  stranger _ _ _ _ _ h := ⟨HoldInv.congr h.1 rfl rfl rfl rfl rfl, h.2⟩
  totals _ _ _ h := ⟨HoldInv.congr h.1 rfl rfl rfl rfl rfl, h.2⟩
  aged _ _ _ _ _ _ h := ⟨HoldInv.congr h.1 rfl rfl rfl rfl rfl, h.2⟩
  rosterTick s h := by
    generalize s.roster.tick s.own = x
    exact ⟨HoldInv.roster h.1 x, h.2⟩
  ownFrame _ _ h := ⟨HoldInv.congr h.1 rfl rfl rfl rfl rfl, h.2⟩

theorem ClaimInv.roster {s : State} (h : s.ClaimInv) (x) : (s.setRoster x).ClaimInv := h.congr rfl rfl rfl rfl

theorem claim_keep : KeepAll (KeptAfterChecks State.ClaimInv) where
  toQuiet := State.ClaimsWell.loud.toLoose.toQuiet
  dwell := State.ClaimsWell.loud.dwell
  conflict s h := by
    unfold State.positionConflict; split
    · exact h
    · refine ⟨?_, by simpa using h.2⟩
      constructor
      · rw [State.transition_claim, if_pos (by decide)]; rfl
      · intro; rw [State.transition_claim, if_pos (by decide)]; rfl
      · intro; rw [State.transition_claim, if_pos (by decide)]; rfl
      · intro; have := h.1.place h.2; simpa [State.own, State.towers, State.config, State.setLoader] using this
      · have := h.1.resets; intro k; simp [State.setLoader, State.inReset] at *; exact this k
  writeOrder s n a d p h := by
    unfold State.writeOrder; dsimp only; split
    · exact ⟨h.1.of_empty rfl rfl rfl, h.2⟩
    · exact ⟨h.1.of_empty rfl rfl rfl, h.2⟩
  refuse _ h := ⟨h.1.congr rfl rfl rfl rfl, h.2⟩
  musterTimer _ _ _ h := ⟨h.1.congr rfl rfl rfl rfl, h.2⟩
  holdCounts _ _ e h := ⟨h.1.congr rfl rfl rfl rfl, h.2⟩
  holdPut s p r k h := ⟨h.1.congr rfl rfl rfl rfl, h.2⟩
  holdDrop s p h := ⟨h.1.congr rfl rfl rfl rfl, h.2⟩
  sensor _ _ _ h := ⟨h.1.congr rfl rfl rfl rfl, h.2⟩
  anySensor _ _ h := ⟨h.1.congr rfl rfl rfl rfl, h.2⟩
  stride _ _ _ h := ⟨h.1.congr rfl rfl rfl rfl, h.2⟩
  anyStride _ _ h := ⟨h.1.congr rfl rfl rfl rfl, h.2⟩
  anyDrive _ _ e h := ⟨h.1.congr rfl rfl rfl rfl, h.2⟩
  drive _ _ e _ h := ⟨h.1.congr rfl rfl rfl rfl, h.2⟩
  localTime _ _ h := ⟨h.1.congr rfl rfl rfl rfl, h.2⟩
  sample s b hb h := ⟨h.1.congr rfl rfl rfl rfl, h.2⟩
  empty s h := ⟨h.1.congr rfl rfl rfl rfl, h.2⟩
  anyLine _ _ h := ⟨h.1.congr rfl rfl rfl rfl, h.2⟩
  announced _ _ h := ⟨h.1.congr rfl rfl rfl rfl, h.2⟩
  heard _ _ _ _ _ _ h := ⟨h.1.congr rfl rfl rfl rfl, h.2⟩
  stranger _ _ _ _ _ h := ⟨h.1.congr rfl rfl rfl rfl, h.2⟩
  totals _ _ _ h := ⟨h.1.congr rfl rfl rfl rfl, h.2⟩
  aged _ _ _ _ _ _ h := ⟨h.1.congr rfl rfl rfl rfl, h.2⟩
  rosterTick s h := by
    generalize s.roster.tick s.own = x
    exact ⟨ClaimInv.roster h.1 x, h.2⟩
  ownFrame _ _ h := ⟨h.1.congr rfl rfl rfl rfl, h.2⟩

theorem RosterInv.congr {s t : State} (h : s.RosterInv) (a : t.roster.records = s.roster.records) (d : t.loader.state = s.loader.state)
   (e : t.loader.config = s.loader.config) (f : t.loader.own = s.loader.own) : t.RosterInv := by
  have ho : t.own = s.own := f
  have hn : t.towers = s.towers := by unfold State.towers State.config; rw [e]
  have hr : ∀ p, t.roster.recordOf p = s.roster.recordOf p := fun p => by unfold Roster.recordOf; rw [a]
  constructor
  · intro k; rw [ho, hr]; exact h.own (by rw [← d]; exact k)
  · intro k p; rw [hn, hr]; exact h.expected (by rw [← d]; exact k) p
  · intro k p; rw [hn, hr]; exact h.above (by rw [← d]; exact k) p
  · intro k; rw [hn, ho]; exact h.place (by rw [← d]; exact k)
  · intro k; rw [a]; exact h.early (by rw [← d]; exact k)

theorem RosterInv.build {s : State} (h : s.RosterInv ∧ s.loader.state = .passed) (y : Roster)
   (ho : (y.recordOf s.own).presence = .current ∧ (y.recordOf s.own).age = 0 ∧ (y.recordOf s.own).missed = 0)
   (he : ∀ p, (y.recordOf p).expected = (s.roster.recordOf p).expected)
   (ha : ∀ p : Position, s.towers < p.toNat → (y.recordOf p).presence = .absent ∧ (y.recordOf p).age = 0
       ∧ (y.recordOf p).lastSeq = none ∧ (y.recordOf p).reported = none) : (s.setRoster y).RosterInv := by
  constructor
  · intro _; exact ho
  · intro _ q; exact (he q).trans (h.1.expected h.2 q)
  · intro _ q z; exact ha q z
  · intro _; exact h.1.place h.2
  · intro z; exact absurd h.2 z

/-- one record changed -/
theorem RosterInv.put {s : State} (h : s.RosterInv
    ∧ s.loader.state = .passed) (p : Position) (x : RosterRecord) (y : Roster)
   (hy : y.records = (s.roster.put p x).records)
   (ho : p = s.own → x.presence = .current ∧ x.age = 0
       ∧ x.missed = 0) (he : x.expected = (s.roster.recordOf p).expected)
   (ha : s.towers < p.toNat → x.presence = .absent ∧ x.age = 0 ∧ x.lastSeq = none
       ∧ x.reported = none) : (s.setRoster y).RosterInv := by
  have key : ∀ q, y.recordOf q = if q = p then x else s.roster.recordOf q := by
    intro q; rw [← Roster.recordOf_put]; unfold Roster.recordOf; rw [hy]
  refine RosterInv.build h y ?_ ?_ ?_
  · rw [key]; split
    · rename_i z; exact ho z.symm
    · exact h.1.own h.2
  · intro q; rw [key]; split
    · rename_i z; rw [z, he]
    · rfl
  · intro q z
    rw [key]; split
    · rename_i w; rw [w] at z; exact ha z
    · exact h.1.above h.2 q z

theorem roster_keep : KeepAll (KeptAfterChecks State.RosterInv) where
  refl _ h := h
  trans h k x := k (h x)
  halt _ _ h := ⟨RosterInv.congr h.1 rfl rfl rfl rfl, h.2⟩
  claim _ _ _ _ h := ⟨RosterInv.congr h.1 rfl rfl rfl rfl, h.2⟩
  emptied _ h := ⟨RosterInv.congr h.1 rfl rfl rfl rfl, h.2⟩
  line _ _ _ h := ⟨RosterInv.congr h.1 rfl rfl rfl rfl, h.2⟩
  pace _ _ _ _ h := ⟨RosterInv.congr h.1 rfl rfl rfl rfl, h.2⟩
  choices _ _ h := ⟨RosterInv.congr h.1 rfl rfl rfl rfl, h.2⟩
  census _ _ _ _ _ _ h := ⟨RosterInv.congr h.1 rfl rfl rfl rfl, h.2⟩
  transition s d n _ h := ⟨RosterInv.congr h.1 (by simp) (by simp) (by simp) (by simp), by simpa using h.2⟩
  dwell s h := ⟨RosterInv.congr h.1 (by simp) (by simp) (by simp) (by simp), by simpa using h.2⟩
  conflict s h := by
    unfold State.positionConflict; split
    · exact h
    · refine ⟨RosterInv.congr h.1 (by simp [State.setLoader]) (by simp [State.setLoader]) (by simp [State.setLoader]) (by simp [State.setLoader]), by simpa using h.2⟩
  writeOrder s n a d p h := by
    unfold State.writeOrder; dsimp only; split
    · exact ⟨RosterInv.congr h.1 rfl rfl rfl rfl, h.2⟩
    · exact ⟨RosterInv.congr h.1 rfl rfl rfl rfl, h.2⟩
  refuse _ h := ⟨RosterInv.congr h.1 rfl rfl rfl rfl, h.2⟩
  musterTimer _ _ _ h := ⟨RosterInv.congr h.1 rfl rfl rfl rfl, h.2⟩
  holdCounts _ _ e h := ⟨RosterInv.congr h.1 rfl rfl rfl rfl, h.2⟩
  holdPut s p r k h := ⟨RosterInv.congr h.1 rfl rfl rfl rfl, h.2⟩
  holdDrop s p h := ⟨RosterInv.congr h.1 rfl rfl rfl rfl, h.2⟩
  sensor _ _ _ h := ⟨RosterInv.congr h.1 rfl rfl rfl rfl, h.2⟩
  anySensor _ _ h := ⟨RosterInv.congr h.1 rfl rfl rfl rfl, h.2⟩
  stride _ _ _ h := ⟨RosterInv.congr h.1 rfl rfl rfl rfl, h.2⟩
  anyStride _ _ h := ⟨RosterInv.congr h.1 rfl rfl rfl rfl, h.2⟩
  anyDrive _ _ e h := ⟨RosterInv.congr h.1 rfl rfl rfl rfl, h.2⟩
  drive _ _ e _ h := ⟨RosterInv.congr h.1 rfl rfl rfl rfl, h.2⟩
  localTime _ _ h := ⟨RosterInv.congr h.1 rfl rfl rfl rfl, h.2⟩
  sample s b hb h := ⟨RosterInv.congr h.1 rfl rfl rfl rfl, h.2⟩
  empty s h := ⟨RosterInv.congr h.1 rfl rfl rfl rfl, h.2⟩
  anyLine _ _ h := ⟨RosterInv.congr h.1 rfl rfl rfl rfl, h.2⟩
  announced _ _ h := ⟨RosterInv.congr h.1 rfl rfl rfl rfl, h.2⟩
  heard s hd fill n1 n2 hf h := by
    refine ⟨RosterInv.put h hd.source _ _ rfl (fun e => absurd e n1) ?_ (fun e => absurd e n2), h.2⟩
    rw [(hf _).2]; rfl
  stranger s p n x k h := by
    have a := h.1.above h.2 p k
    have b := h.1.place h.2
    refine ⟨RosterInv.put h p { s.roster.recordOf p with accepted := n } _ rfl (fun e => ?_) rfl (fun _ => a), h.2⟩
    rw [e] at k; omega
  totals _ _ e h := ⟨RosterInv.congr h.1 e rfl rfl rfl, h.2⟩
  aged s p x a n e h := by
    refine ⟨RosterInv.put h p { s.roster.recordOf p with presence := x, age := a } _ rfl (fun e => absurd e n) rfl (fun z => ?_), h.2⟩
    rw [h.1.expected h.2 p] at e
    simp at e; omega
  rosterTick s h := by
    have key : ∀ q, (s.roster.tick s.own).recordOf q = if q = s.own then s.roster.recordOf q else (s.roster.recordOf q).tick := by
      intro q
      unfold Roster.recordOf Roster.tick
      simp only [Vector.get_eq_getElem, Vector.getElem_ofFn]
      by_cases z : q = s.own
      · rw [if_pos z, if_pos (by rw [z])]
      · rw [if_neg z, if_neg (fun w => z (placeOf_inj.mp w))]
    have g1 : ∀ r : RosterRecord, r.tick.expected = r.expected := fun r => by unfold RosterRecord.tick; split <;> rfl
    have g2 : ∀ r : RosterRecord, r.presence = .absent → r.tick = r :=
        fun r e => by unfold RosterRecord.tick; rw [if_pos e]
    generalize s.roster.tick s.own = y at key
    refine ⟨RosterInv.build h y ?_ ?_ ?_, h.2⟩
    · rw [key, if_pos rfl]; exact h.1.own h.2
    · intro q; rw [key]; split
      · rfl
      · rw [g1]
    · intro q z
      have w := h.1.above h.2 q z
      rw [key]; split
      · exact w
      · rw [g2 _ w.1]; exact w
  ownFrame s f h := by
    have a := h.1.own h.2
    have b := h.1.place h.2
    refine ⟨RosterInv.put h s.own { s.roster.recordOf s.own with lastSeq := some f.seq, accepted := satInc (s.roster.recordOf s.own).accepted } _ rfl (fun _ => a) rfl (fun z => ?_), h.2⟩
    omega

/-- No timer of a drive state runs in OFFLINE, and the port stands as its exchange state says. -/
def State.Asleep (s : State) : Prop :=
  s.drive.state = .offline ∧ s.drive.dwellTimer = none ∧ s.stride.retryPause = none ∧ s.orders.counting = false
    ∧ s.orders.musterTimer = none ∧ s.stride.coastWindow = none ∧ s.pace = PaceTimer.reset
    ∧ (s.drive.blinkTimer ≠ none → s.loader.offlineCause ≠ none) ∧ s.sensor.Coherent
    ∧ (s.sensor.exchange = .configRead → s.loader.state = .reading) ∧ (s.inReset = true → s.sensor.exchange = .stopped)

/-- Before the checks pass, what blocks stay. -/
structure Still (s t : State) : Prop where
  g : t.governor = s.governor
  dir : t.drive.direction = s.drive.direction
  h : t.holds = s.holds
  c : t.claim.reasons = s.claim.reasons
  cr : t.claim.reach = s.claim.reach
  u : t.orders.unset = s.orders.unset
  n : t.orders.number = s.orders.number
  r : t.roster = s.roster
  l : t.loader = s.loader
  z : t.resets = s.resets
  asleep : s.Asleep → t.Asleep

theorem Still.rfl' (s : State) : Still s s := ⟨rfl, rfl, rfl, rfl, rfl, rfl, rfl, rfl, rfl, rfl, id⟩

/-- A port in service set by a command that keeps it so. -/
theorem asleep_sensor {s : State} {x : SensorPort} (k : s.sensor.exchange ≠ .configRead)
    (n : s.sensor.exchange ≠ .stopped) (h : s.SensorSteps x) : s.Asleep → (s.setSensor x).Asleep := by
  rintro ⟨a1, a2, a3, a4, a5, a6, a7, a8, a9, -, a11⟩
  obtain ⟨b, c⟩ := h ⟨a9, k⟩
  exact ⟨a1, a2, a3, a4, a5, a6, a7, a8, b, fun z => absurd z c, fun z => absurd (a11 z) n⟩

theorem tickStill (s : State) a b c d e g h i (k : b.direction = s.drive.direction)
    (z : s.Asleep → (((((((((s.setLocalTime a).setDrive b).setSensor c).setStride d).setPace e).setRoster s.roster).setOrders
      { s.orders with musterTimer := g }).setHalt h).setLine i).Asleep) :
    Still s (((((((((s.setLocalTime a).setDrive b).setSensor c).setStride d).setPace e).setRoster s.roster).setOrders
      { s.orders with musterTimer := g }).setHalt h).setLine i) := ⟨rfl, k, rfl, rfl, rfl, rfl, rfl, rfl, rfl, rfl, z⟩

theorem settle_noop {s : State} (h : s.settledState = s.drive.state) : s.settle = s := by
  unfold State.settle; rw [if_pos h]

theorem settled_offline {s : State} (h : s.loader.state ≠ .passed) : s.settledState = .offline := by
  unfold State.settledState State.topTier State.checksPassed; simp [h]

theorem still_step {s t : State} (d : s.DriveInv) (np : s.loader.state ≠ .passed) (i : Instr) (e : exec i s = .next t)
   (hi : i ≠ .powerOnReset ∧ i ≠ .resetPinAssert ∧ (∀ p, i ≠ .powerOnResetEnd p) ∧ (∀ p, i ≠ .resetPinRelease p)
       ∧ (∀ a b, i ≠ .configReadComplete a b)) : Still s t := by
  have off : s.drive.state = .offline :=
      by have := d.settled; unfold State.Settled at this; rw [settled_offline np] at this; exact this.symm
  have na : s.active = false := by unfold State.active State.checksPassed; simp [np]
  have hs : ∀ u : State, u.loader = s.loader → u.drive.state = s.drive.state → u.settle = u := by
    intro u a b; apply settle_noop; rw [settled_offline (by rw [a]; exact np), b, off]
  have sil := d.silent off
  have st : s.stride.stallTimer = none := by
    by_contra k; have := d.stall k; rw [off] at this; cases this
  have rg : ∀ hd k fill del, Still s (s.receiveGood hd k fill del) := by
    intro hd k fill del
    unfold State.receiveGood
    split
    · exact .rfl' s
    · split
      · exact ⟨rfl, rfl, rfl, rfl, rfl, rfl, rfl, rfl, rfl, rfl, id⟩
      · dsimp only
        have : (s.noteGood hd.line).active = false := na
        rw [this]; exact ⟨rfl, rfl, rfl, rfl, rfl, rfl, rfl, rfl, rfl, rfl, id⟩
  have fin : ∀ (u : State) f n, Still s u → u.drive.state = .offline → u.sensor.exchange ≠ .configRead →
      u.sensor.exchange ≠ .stopped → Still s (u.finishExchange f n) := by
    intro u f n h o x y
    unfold State.finishExchange; rw [if_pos o]
    exact ⟨h.g, h.dir, h.h, h.c, h.cr, h.u, h.n, h.r, h.l, h.z,
      fun a => asleep_sensor x y (fun z => z.rests true) (h.asleep a)⟩
  cases i <;> simp only [exec] at e
  case powerOnReset => exact absurd rfl hi.1
  case resetPinAssert => exact absurd rfl hi.2.1
  case powerOnResetEnd => exact absurd rfl (hi.2.2.1 _)
  case resetPinRelease => exact absurd rfl (hi.2.2.2.1 _)
  case configReadComplete => exact absurd rfl (hi.2.2.2.2 _ _)
  case contactorRestEnd =>
    unfold execContactorRestEnd at e; split at e <;> cases e
    · rw [hs (s.setDrive { s.drive with rest := .rested }) rfl rfl]; exact ⟨rfl, rfl, rfl, rfl, rfl, rfl, rfl, rfl, rfl, rfl, id⟩
    · exact .rfl' s
  case dwellTimerExpiry =>
    unfold execDwellTimerExpiry at e; rw [if_neg (by rw [off]; simp)] at e; cases e; exact .rfl' s
  case lampBlinkStep =>
    unfold execLampBlinkStep at e; split at e
    · split at e <;> cases e
      · rename_i k
        exact ⟨rfl, rfl, rfl, rfl, rfl, rfl, rfl, rfl, rfl, rfl, fun a => ⟨a.1, a.2.1, a.2.2.1, a.2.2.2.1, a.2.2.2.2.1,
          a.2.2.2.2.2.1, a.2.2.2.2.2.2.1, fun _ => by show s.loader.offlineCause ≠ none; rw [k]; exact nofun,
          a.2.2.2.2.2.2.2.2⟩⟩
      · exact .rfl' s
    · cases e; exact .rfl' s
  case localTimeTick =>
    unfold execLocalTimeTick at e; split at e <;> cases e
    · exact .rfl' s
    · unfold State.tick; rw [na]; simp only [Bool.false_eq_true, if_false]
      refine tickStill s _ _ _ _ _ _ _ _ rfl ?_
      rintro ⟨a1, a2, a3, a4, a5, a6, a7, a8, a9, a10⟩
      refine ⟨a1, countDown_eq.mpr a2, countDown_eq.mpr a3, a4, countDown_eq.mpr a5, countDown_eq.mpr a6, ?_,
        fun k => a8 (countDown_ne.mp k), ⟨a9.select0, a9.select1, a9.clock, fun k => countDown_eq.mpr (a9.sample k), a9.ready⟩, a10⟩
      show s.pace.tick _ = _
      rw [a7]; rfl
  case sampleTimerExpiry =>
    unfold execSampleTimerExpiry at e; split at e; swap
    · cases e; exact .rfl' s
    · split at e <;> cases e
      · rename_i x
        obtain ⟨p, e, h⟩ := s.beginExchange_steps (by assumption)
        rw [e]; exact ⟨rfl, rfl, rfl, rfl, rfl, rfl, rfl, rfl, rfl, rfl, asleep_sensor (by rw [x]; decide) (by rw [x]; decide) h⟩
      · rename_i x
        exact ⟨rfl, rfl, rfl, rfl, rfl, rfl, rfl, rfl, rfl, rfl, asleep_sensor (by rw [x]; decide) (by rw [x]; decide)
          (fun h => h.congr rfl rfl rfl rfl (fun k => absurd rfl k) rfl)⟩
      · rename_i x
        exact ⟨rfl, rfl, rfl, rfl, rfl, rfl, rfl, rfl, rfl, rfl, asleep_sensor (by rw [x]; decide) (by rw [x]; decide)
          (fun h => h.congr rfl rfl rfl rfl (fun k => absurd rfl k) rfl)⟩
      · exact .rfl' s
      · exact .rfl' s
  case readyAssert =>
    unfold execReadyAssert at e; split at e <;> cases e
    · rename_i x
      exact ⟨rfl, rfl, rfl, rfl, rfl, rfl, rfl, rfl, rfl, rfl, asleep_sensor (by rw [x]; decide) (by rw [x]; decide) (fun h => h.shifts x _ _)⟩
    · exact .rfl' s
  case readyTimeout =>
    unfold execReadyTimeout at e; split at e <;> cases e
    · rename_i x; exact fin s _ _ (.rfl' s) off (by rw [x]; decide) (by rw [x]; decide)
    · exact .rfl' s
  case short =>
    unfold execShort at e; split at e <;> cases e
    · rename_i x
      refine fin _ _ _ ⟨rfl, rfl, rfl, rfl, rfl, rfl, rfl, rfl, rfl, rfl, asleep_sensor (by rw [x]; decide) (by rw [x]; decide) (fun h => h.congr rfl rfl rfl rfl id rfl)⟩ off ?_ ?_
      · show s.sensor.exchange ≠ _; rw [x]; decide
      · show s.sensor.exchange ≠ _; rw [x]; decide
    · exact .rfl' s
  case shiftComplete w _ =>
    unfold execShiftComplete at e; split at e <;> cases e
    · rename_i x
      refine fin _ _ _ ⟨rfl, rfl, rfl, rfl, rfl, rfl, rfl, rfl, rfl, rfl, asleep_sensor (by rw [x]; decide) (by rw [x]; decide) (fun h => h.congr rfl rfl rfl rfl id rfl)⟩ off ?_ ?_
      · show s.sensor.exchange ≠ _; rw [x]; decide
      · show s.sensor.exchange ≠ _; rw [x]; decide
    · exact .rfl' s
  case wheelInputChange =>
    unfold execWheelInputChange at e; split at e <;> cases e
    · exact .rfl' s
    · exact ⟨rfl, rfl, rfl, rfl, rfl, rfl, rfl, rfl, rfl, rfl, id⟩
  case wheelPulse =>
    unfold execWheelPulse at e; split at e
    · cases e; exact .rfl' s
    · dsimp only at e
      rw [if_neg (by show ¬ (s.active = true); rw [na]; simp)] at e; cases e
      exact ⟨rfl, rfl, rfl, rfl, rfl, rfl, rfl, rfl, rfl, rfl, id⟩
  case pulseFilterRelease =>
    unfold execPulseFilterRelease at e; split at e <;> cases e
    · exact .rfl' s
    · exact ⟨rfl, rfl, rfl, rfl, rfl, rfl, rfl, rfl, rfl, rfl, id⟩
  case stallTimerExpiry =>
    unfold execStallTimerExpiry at e; rw [if_neg (by rw [st]; simp)] at e; cases e; exact .rfl' s
  case retryPauseEnd =>
    unfold execRetryPauseEnd at e; split at e <;> cases e
    · rw [hs (s.setStride { s.stride with retryPause := none }) rfl rfl]
      exact ⟨rfl, rfl, rfl, rfl, rfl, rfl, rfl, rfl, rfl, rfl, fun a => ⟨a.1, a.2.1, rfl, a.2.2.2⟩⟩
    · exact .rfl' s
  case coastWindowExpiry =>
    unfold execCoastWindowExpiry at e; split at e <;> cases e
    · exact ⟨rfl, rfl, rfl, rfl, rfl, rfl, rfl, rfl, rfl, rfl, fun a => ⟨a.1, a.2.1, a.2.2.1, a.2.2.2.1, a.2.2.2.2.1, rfl, a.2.2.2.2.2.2⟩⟩
    · exact .rfl' s
  case endOfOnPart =>
    unfold execEndOfOnPart at e; split at e
    · rename_i k
      dsimp only at e
      have z : ∀ x : State, s.Asleep → x.Asleep := fun x a => by
        have := k.1; rw [a.2.2.2.2.2.2.1] at this; cases this
      split at e <;> cases e
      · rw [hs (s.setPace { s.pace with request := false }) rfl rfl]
        exact ⟨rfl, rfl, rfl, rfl, rfl, rfl, rfl, rfl, rfl, rfl, z _⟩
      · exact ⟨rfl, rfl, rfl, rfl, rfl, rfl, rfl, rfl, rfl, rfl, z _⟩
    · cases e; exact .rfl' s
  case endOfPeriod =>
    unfold execEndOfPeriod at e; split at e
    · rename_i k
      dsimp only at e
      have z : ∀ x : State, s.Asleep → x.Asleep := fun x a => by
        rw [a.2.2.2.2.2.2.1] at k; cases k.1
      split at e <;> cases e
      · exact ⟨rfl, rfl, rfl, rfl, rfl, rfl, rfl, rfl, rfl, rfl, z _⟩
      · rw [hs s.startPeriod rfl rfl]; exact ⟨rfl, rfl, rfl, rfl, rfl, rfl, rfl, rfl, rfl, rfl, z _⟩
    · cases e; exact .rfl' s
  case staleAgePassed =>
    unfold execStaleAgePassed at e; dsimp only at e; rw [if_neg (by rw [na]; simp)] at e; cases e; exact .rfl' s
  case lostLimitPassed =>
    unfold execLostLimitPassed at e; dsimp only at e; rw [if_neg (by rw [na]; simp)] at e; cases e; exact .rfl' s
  case musterTimerExpiry =>
    unfold execMusterTimerExpiry at e; rw [if_neg (by rw [off]; simp)] at e; cases e; exact .rfl' s
  case loopSenseChange =>
    unfold execLoopSenseChange at e; split at e <;> cases e
    · exact .rfl' s
    · exact ⟨rfl, rfl, rfl, rfl, rfl, rfl, rfl, rfl, rfl, rfl, id⟩
  case loopSenseSettled =>
    unfold execLoopSenseSettled at e; split at e; swap
    · cases e; exact .rfl' s
    · dsimp only at e; rw [if_neg (by show ¬ (s.active = true); rw [na]; simp)] at e; cases e
      exact ⟨rfl, rfl, rfl, rfl, rfl, rfl, rfl, rfl, rfl, rfl, id⟩
  case characterReceived =>
    unfold execCharacterReceived at e; split at e <;> cases e
    · exact ⟨rfl, rfl, rfl, rfl, rfl, rfl, rfl, rfl, rfl, rfl, id⟩
    · exact .rfl' s
  case receiverIdle =>
    unfold execReceiverIdle at e; dsimp only at e; split at e
    · cases e; exact .rfl' s
    · split at e
      · split at e <;> cases e
        · exact ⟨rfl, rfl, rfl, rfl, rfl, rfl, rfl, rfl, rfl, rfl, id⟩
        · unfold State.takeCollected; dsimp only
          split <;> exact rg _ _ _ _
      · cases e; exact ⟨rfl, rfl, rfl, rfl, rfl, rfl, rfl, rfl, rfl, rfl, id⟩
  case frameCheckFailed =>
    unfold execFrameCheckFailed at e; dsimp only at e
    split at e
    · split at e
      · cases e; exact ⟨rfl, rfl, rfl, rfl, rfl, rfl, rfl, rfl, rfl, rfl, id⟩
      · split at e <;> cases e
        · exact .rfl' s
        · exact ⟨rfl, rfl, rfl, rfl, rfl, rfl, rfl, rfl, rfl, rfl, id⟩
    · cases e; exact .rfl' s
  case statusFrame => cases e; exact rg _ _ _ _
  case runOrder => cases e; exact rg _ _ _ _
  case stopOrder => cases e; exact rg _ _ _ _
  case clearOrder => cases e; exact rg _ _ _ _
  case orderUndefinedAction => cases e; exact rg _ _ _ _
  case holdFrame => cases e; exact rg _ _ _ _
  case freeFrame => cases e; exact rg _ _ _ _
  case answerFrame => cases e; exact rg _ _ _ _
  case reportTimerExpiry =>
    unfold execReportTimerExpiry at e; split at e <;> cases e
    · exact ⟨rfl, rfl, rfl, rfl, rfl, rfl, rfl, rfl, rfl, rfl, id⟩
    · exact .rfl' s
  case transmissionStart =>
    unfold execTransmissionStart at e; split at e
    · cases e; exact .rfl' s
    · rw [if_neg (by rw [na]; simp)] at e; cases e; exact .rfl' s
  case transmissionComplete =>
    unfold execTransmissionComplete at e; rw [sil.1] at e; cases e; exact .rfl' s
  case clash =>
    unfold execClash at e; rw [sil.1] at e; cases e; exact .rfl' s
  case quietTimerExpiry =>
    unfold execQuietTimerExpiry at e; dsimp only at e; split at e
    · split at e
      · split at e <;> cases e <;> exact ⟨rfl, rfl, rfl, rfl, rfl, rfl, rfl, rfl, rfl, rfl, id⟩
      · cases e; exact ⟨rfl, rfl, rfl, rfl, rfl, rfl, rfl, rfl, rfl, rfl, id⟩
    · cases e; exact .rfl' s
  case seizeDetected =>
    unfold execSeizeDetected at e; dsimp only at e; split at e
    · rw [if_neg (by show ¬ (s.active = true); rw [na]; simp)] at e; cases e
      exact ⟨rfl, rfl, rfl, rfl, rfl, rfl, rfl, rfl, rfl, rfl, id⟩
    · cases e; exact .rfl' s
  case seizeEnd =>
    unfold execSeizeEnd at e; rw [sil.1] at e; cases e; exact .rfl' s
  case answerDiscard =>
    unfold execAnswerDiscard at e; rw [sil.2.2.1] at e; cases e; exact .rfl' s
  all_goals (cases e; exact rg _ _ _ _)

/-- all four -/
structure BlockInvs (s : State) : Prop where
  lead : s.LeadInv
  hold : s.HoldInv
  claim : s.ClaimInv
  roster : s.RosterInv

theorem BlockInvs.congr_still {s t : State} (h : BlockInvs s) (k : Still s t) : BlockInvs t where
  lead := LeadInv.congr h.lead k.g k.dir (by rw [k.l]) (by rw [k.l])
  hold := HoldInv.congr h.hold (by rw [k.h]) k.u k.n k.l k.z
  claim := h.claim.congr k.c k.cr k.l k.z
  roster := RosterInv.congr h.roster (by rw [k.r]) (by rw [k.l]) (by rw [k.l]) (by rw [k.l])

theorem all_reset (s : State) (k : Bool) (r : ResetLines) : BlockInvs ((s.beginReset k).setResets r) where
  lead := ⟨rfl, Nat.zero_le _, (by intro b h; cases h), fun _ => rfl, (by intro h; cases h)⟩
  hold := ⟨(by
    intro p x e; exfalso
    have : ((s.beginReset k).setResets r).holds.recordOf p = none := by
      show HoldTable.reset.recordOf p = none
      simp [HoldTable.recordOf, HoldTable.reset, Vector.get_eq_getElem]
    rw [this] at e; cases e), fun _ => rfl, fun _ => rfl⟩
  claim := ⟨rfl, fun _ => rfl, fun _ => rfl, (by intro h; cases h), fun _ => rfl⟩
  roster := ⟨(by intro h; cases h), (by intro h; cases h), (by intro h; cases h), (by intro h; cases h), fun _ => rfl⟩

/-- end of reset -/
theorem all_endReset {s : State} (d : s.DriveInv) (h : BlockInvs s) (p : Position) (hr : s.inReset = true) (r : ResetLines) :
   BlockInvs ((s.setResets r).endReset p) := by
  have rd := d.startUp.resets hr
  have np : s.loader.state ≠ .passed := by rw [rd]; decide
  constructor
  · exact LeadInv.congr h.lead rfl rfl rfl rfl
  · refine ⟨fun q x e => ?_, h.hold.early, fun _ => rd⟩
    exfalso
    have e2 : s.holds.recordOf q = some x := e
    simp [HoldTable.recordOf, h.hold.early np, Vector.get_eq_getElem] at e2
  · have c0 := h.claim.early np
    refine ⟨?_, fun _ => c0, fun _ => c0, fun k => absurd k np, fun _ => rd⟩
    have := h.claim.reach
    show s.claim.reach = _
    show s.claim.reach = State.reachOf _ s.claim.reasons
    rw [this, c0]; rfl
  · exact ⟨fun k => absurd k np, fun k => absurd k np, fun k => absurd k np, fun k => absurd k np, h.roster.early⟩

theorem all_dropReset {s : State} (h : BlockInvs s) (r : ResetLines) (hr : s.inReset = true) : BlockInvs (s.setResets r) := by
  have rd := h.hold.resets hr
  constructor
  · exact LeadInv.congr h.lead rfl rfl rfl rfl
  · exact ⟨h.hold.records, h.hold.early, fun _ => rd⟩
  · exact ⟨h.claim.reach, h.claim.pacer, h.claim.early, h.claim.place, fun _ => rd⟩
  · exact RosterInv.congr h.roster rfl rfl rfl rfl

theorem all_config {s t : State} (d : s.DriveInv) (h : BlockInvs s) (im rdy) (e : execConfigReadComplete im rdy s = .next t) : BlockInvs t := by
  unfold execConfigReadComplete at e
  split at e
  · rename_i k
    obtain ⟨nr, rd, -⟩ := k
    have np : s.loader.state ≠ .passed := by rw [rd]; decide
    dsimp only at e
    have c0 := h.claim.early np
    have hh : ∀ p, s.holds.recordOf p = none :=
        by intro p; simp [HoldTable.recordOf, h.hold.early np, Vector.get_eq_getElem]
    split at e <;> cases e
    · constructor
      · exact ⟨h.lead.lead, h.lead.count, h.lead.bends, fun _ => h.lead.early np, (by intro k; cases k)⟩
      · refine ⟨fun q x e => ?_, fun _ => h.hold.early np,
            fun k => absurd (nr.symm.trans (show s.inReset = true from k)) (by decide)⟩
        have e2 : s.holds.recordOf q = some x := e
        rw [hh] at e2; cases e2
      · refine ⟨?_, fun _ => c0, fun _ => c0, (by intro k; cases k),
            fun k => absurd (nr.symm.trans (show s.inReset = true from k)) (by decide)⟩
        have := h.claim.reach
        show s.claim.reach = State.reachOf _ s.claim.reasons
        rw [this, c0]; rfl
      · exact ⟨(by intro k; cases k), (by intro k; cases k), (by intro k; cases k), (by intro k; cases k),
            fun _ => h.roster.early np⟩
    · rename_i cf
      have place : 1 ≤ s.loader.own.toNat ∧ s.loader.own.toNat ≤ (ConfigRecord.ofBytes im).towers.toNat := by
        unfold configFailure at cf
        split_ifs at cf with a1 a2 a3 a4 a5 a6
        have : ¬ (s.loader.own.toNat < 1 ∨ (ConfigRecord.ofBytes im).towers.toNat < s.loader.own.toNat) := a6
        omega
      generalize hu : (s.setLoader { s.loader with state := .checking, config := ConfigRecord.ofBytes im, crc := crcFieldOf im }).setSensor { s.sensor with select1 := false, clock := .low, dataOut := [] } = u
      have ug : u.governor = s.governor := by rw [← hu]; rfl
      have ud : u.drive = s.drive := by rw [← hu]; rfl
      have uh : u.holds = s.holds := by rw [← hu]; rfl
      have uc : u.claim = s.claim := by rw [← hu]; rfl
      have ur : u.roster = s.roster := by rw [← hu]; rfl
      have uz : u.inReset = false := by rw [← hu]; exact nr
      have up : 1 ≤ u.own.toNat ∧ u.own.toNat ≤ u.towers := by rw [← hu]; exact place
      have hv : BlockInvs u.handOver ∧ u.handOver.loader.state = .passed := by
        refine ⟨?_, rfl⟩
        have w0 : u.governor.window = [] := by rw [ug]; exact h.lead.early np
        constructor
        · refine ⟨?_, ?_, ?_, fun _ => w0, fun _ => ⟨rfl, rfl⟩⟩
          · show u.governor.lead = leadOf u.governor.window u.drive.direction
            rw [ug, ud]; exact h.lead.lead
          · show u.governor.window.length ≤ _
            rw [w0]; exact Nat.zero_le _
          · show ∀ b ∈ u.governor.window, _
            rw [w0]; intro b hb; cases hb
        · refine ⟨fun q x e => ?_, fun k => absurd rfl k,
              fun k => absurd (uz.symm.trans (show u.inReset = true from k)) (by decide)⟩
          have e2 : u.holds.recordOf q = some x := e
          rw [uh, hh] at e2; cases e2
        · have c1 : u.claim.reasons = ReasonSet.empty := by rw [uc]; exact c0
          refine ⟨?_, fun _ => c1, fun _ => c1, fun _ => up.2,
              fun k => absurd (uz.symm.trans (show u.inReset = true from k)) (by decide)⟩
          show u.claim.reach = State.reachOf _ u.claim.reasons
          rw [c1, uc, h.claim.reach, c0]; rfl
        · have key : ∀ q, (u.roster.atChecks u.own u.towers).recordOf q = if q = u.own then { RosterRecord.reset with expected := decide (q.toNat ≤ u.towers), presence := .current, age := 0, missed := 0, accepted := 0, lastSeq := some 255 } else { RosterRecord.reset with expected := decide (q.toNat ≤ u.towers) } := by
            intro q
            have base : ∀ q, Roster.recordOf { u.roster with records := Vector.ofFn (fun i : Fin 32 => { u.roster.records.get i with expected := decide (i.val ≤ u.towers) }) } q = { RosterRecord.reset with expected := decide (q.toNat ≤ u.towers) } := by
              intro q
              unfold Roster.recordOf
              rw [ur, h.roster.early np]
              simp [Vector.get_eq_getElem, placeOf]
            unfold Roster.atChecks
            dsimp only
            rw [Roster.recordOf_put]
            split
            · rename_i z; rw [base, z]
            · exact base q
          refine ⟨fun _ => ?_, fun _ q => ?_, fun _ q z => ?_, fun _ => up.2, fun k => absurd rfl k⟩
          · show ((u.roster.atChecks u.own u.towers).recordOf u.own).presence = _
                ∧ ((u.roster.atChecks u.own u.towers).recordOf u.own).age = 0
                ∧ ((u.roster.atChecks u.own u.towers).recordOf u.own).missed = 0
            rw [key, if_pos rfl]; exact ⟨rfl, rfl, rfl⟩
          · show ((u.roster.atChecks u.own u.towers).recordOf q).expected = decide (q.toNat ≤ u.towers)
            rw [key]; split <;> rfl
          · have z' : u.towers < q.toNat := z
            show ((u.roster.atChecks u.own u.towers).recordOf q).presence = _
                ∧ ((u.roster.atChecks u.own u.towers).recordOf q).age = 0
                ∧ ((u.roster.atChecks u.own u.towers).recordOf q).lastSeq = none
                ∧ ((u.roster.atChecks u.own u.towers).recordOf q).reported = none
            rw [key, if_neg (by intro e; rw [e] at z'; omega)]; exact ⟨rfl, rfl, rfl, rfl⟩
      have fin : ∀ {P : State → Prop}, KeepAll (KeptAfterChecks P) → P u.handOver → P (u.checksPass rdy) := by
        intro P q p
        have q1 : KeptAfterChecks P u.handOver (u.handOver.beginSensing rdy) := by
          unfold State.beginSensing; split
          · exact q.anySensor _ _
          · exact q.begin_kept _ _
        exact (q.trans q1 (q.settle _) ⟨p, rfl⟩).1
      exact ⟨fin lead_keep hv.1.lead, fin hold_keep hv.1.hold, fin claim_keep hv.1.claim, fin roster_keep hv.1.roster⟩
  · cases e; exact h

end Sys2Proof.Machine
end

