-- ==== Sys2Proof/Laws/Collected.lean ====
section
/-! SUPPORT. Everything RECEIVER_IDLE can do: nothing, the end of a collection, the count of a failed check, or what the
command of a frame does. -/
namespace Sys2Proof.Machine

/-- A good frame in collection does what some frame command does. -/
theorem State.takeCollected_frame (s : State) (l : Line) (cs : List Byte) :
    ∃ i h k, frameOf i = some (h, k) ∧ exec i s = .next (s.takeCollected l cs) := by
  unfold State.takeCollected; dsimp only
  split
  · exact ⟨.statusFrame _ _, _, _, rfl, rfl⟩
  · exact ⟨.orderUndefinedAction _ _ _ _, _, _, rfl, rfl⟩
  · exact ⟨.holdFrame _ _ _, _, _, rfl, rfl⟩
  · exact ⟨.freeFrame _, _, _, rfl, rfl⟩
  · exact ⟨.askUnknownItem _ _ _ _, _, _, rfl, rfl⟩
  · exact ⟨.answerFrame _ 0 0 0, _, _, rfl, rfl⟩

/-- The outcomes of RECEIVER_IDLE. -/
theorem exec_receiverIdle (l : Line) (s : State) :
    exec (.receiverIdle l) s = .next s ∨ exec (.receiverIdle l) s = .next (s.modifyLine l LineState.endFrame)
      ∨ (∃ f, exec (.receiverIdle l) s = .next (s.dropFailed l f))
      ∨ ∃ i h k, frameOf i = some (h, k) ∧ exec (.receiverIdle l) s = exec i s := by
  show execReceiverIdle l s = _ ∨ execReceiverIdle l s = _ ∨ (∃ f, execReceiverIdle l s = _)
    ∨ ∃ i h k, _ ∧ execReceiverIdle l s = exec i s
  unfold execReceiverIdle; dsimp only
  split
  · exact .inl rfl
  · split
    · split
      · rename_i f _; exact .inr (.inr (.inl ⟨f, rfl⟩))
      · obtain ⟨i, h, k, e, j⟩ := s.takeCollected_frame l (s.line.lineState l).characters
        exact .inr (.inr (.inr ⟨i, h, k, e, j.symm⟩))
    · exact .inr (.inl rfl)

end Sys2Proof.Machine
end

