-- ==== Sys2Proof/Laws/Settling.lean ====
section
/-! SUPPORT. Settling, halting and the census, each said whole: the state settled to, every field of a halt, and what a census
that completes leaves. -/

open Sys2Proof Sys2Proof.Machine Host

namespace Sys2Proof.Machine

set_option maxHeartbeats 1000000

def SameQueue (s t : State) : Prop := t.pending = s.pending

theorem sameQueue_keep : KeepAll SameQueue where
  refl _ := rfl
  trans h k := k.trans h
  halt _ _ := rfl
  claim _ _ _ _ := rfl
  emptied _ := rfl
  line _ _ _ := rfl
  pace _ _ _ _ := rfl
  choices _ _ := rfl
  census _ _ _ _ _ _ := rfl
  transition s d _ _ := by simp [SameQueue]
  dwell s := by simp [SameQueue]
  conflict s := by unfold SameQueue State.positionConflict; split <;> simp
  writeOrder s n a d p := by
    unfold State.writeOrder; dsimp only; split <;> rfl
  refuse _ := rfl
  musterTimer _ _ _ := rfl
  holdCounts _ _ _ := rfl
  holdPut _ _ _ _ := rfl
  holdDrop _ _ := rfl
  sensor _ _ _ := rfl
  anySensor _ _ := rfl
  stride _ _ _ := rfl
  anyStride _ _ := rfl
  anyDrive _ _ _ := rfl
  drive _ _ _ _ := rfl
  localTime _ _ := rfl
  sample s b hb := rfl
  empty s := rfl
  anyLine _ _ := rfl
  announced _ _ := rfl
  heard _ _ _ _ _ _ := rfl
  stranger _ _ _ _ _ := rfl
  totals _ _ _ := rfl
  aged _ _ _ _ _ _ := rfl
  rosterTick s := by generalize s.roster.tick s.own = x; rfl
  ownFrame _ _ := rfl

theorem toBytes_take (image : List Byte) (h : image.length = 32) : (ConfigRecord.ofBytes image).toBytes = image.take 30 := by
  have hb : ∀ a b : Byte, bytes16 (a ++ b) = [a, b] := by
    intro a b; simp only [bytes16, highByte, lowByte]; congr 1 <;> [skip; congr 1] <;>
        (ext i hi; simp only [BitVec.getElem_extractLsb']; rw [BitVec.getLsbD_append]; simp [hi,
        BitVec.getLsbD_eq_getElem])
  unfold ConfigRecord.toBytes ConfigRecord.ofBytes
  dsimp only
  rw [hb, hb, hb]
  apply List.ext_getElem
  · simp [h]
  · intro i h1 h2
    simp at h1
    interval_cases i <;> simp [List.getD_eq_getElem?_getD, h]

theorem reportReason_claim (s : State) r p : (s.reportReason r p).claim.reasons = s.claim.reasons.put r p
    ∧ (s.reportReason r p).claim.announced = s.claim.announced ∧ (s.reportReason r p).holds = s.holds
    ∧ (s.reportReason r p).halt = s.halt ∧ (s.reportReason r p).sensor = s.sensor
    ∧ (s.reportReason r p).orders = s.orders ∧ (s.reportReason r p).stride = s.stride
    ∧ (s.reportReason r p).pace = s.pace ∧ (s.reportReason r p).drive = s.drive
    ∧ (s.reportReason r p).governor = s.governor ∧ (s.reportReason r p).line.transmitter = s.line.transmitter
    ∧ (s.line.statusSlot = true → (s.reportReason r p).line.statusSlot = true)
    ∧ (s.reportReason r p).loader = s.loader := by
  unfold State.reportReason; dsimp only
  split
  · rename_i h; exact ⟨h.symm, rfl, rfl, rfl, rfl, rfl, rfl, rfl, rfl, rfl, rfl, id, rfl⟩
  · exact ⟨rfl, rfl, rfl, rfl, rfl, rfl, rfl, rfl, rfl, rfl, rfl, fun _ => rfl, rfl⟩

theorem followingEntry_calm {s : State} (h : s.isFollowing = true) (k : s.leadBeyondHalt = false) : s.followingEntry = s.reportLag := by
  unfold State.followingEntry; rw [if_pos h]
  show (if (State.reportLag s).misaligned = true then _ else _) = _
  have : s.reportLag.misaligned = false := by
    obtain ⟨-, -, -, -, -, -, -, -, d, g, -⟩ :=
        reportReason_claim s .lag (s.governor.lagMark && s.isFollowing && !s.isPacer)
    unfold State.misaligned State.leadBeyondHalt State.isFollowing at *
    rw [show s.reportLag.governor = s.governor from g]
    rw [k]; simp
  rw [this]; rfl

theorem leadBeyond_congr {s t : State} (h : t.governor = s.governor) : t.leadBeyondHalt = s.leadBeyondHalt := by
  unfold State.leadBeyondHalt; rw [h]

theorem setDrive_self (s : State) (d : DriveControl) : s.setDrive d = { s with drive := d } := rfl

theorem release_slots (x : SpanLine) : x.release.claimSlot = x.claimSlot ∧ x.release.answerSlot = x.answerSlot
    ∧ x.release.statusSlot = x.statusSlot ∧ x.release.transmitter = .released
    ∧ x.release.reportTimer = x.reportTimer ∧ x.release.answersDiscarded = x.answersDiscarded
    ∧ x.release.consecutiveClashes = x.consecutiveClashes := by
  unfold SpanLine.release; dsimp only; split <;> exact ⟨rfl, rfl, rfl, rfl, rfl, rfl, rfl⟩

theorem beginSeize_facts (x : SpanLine) (h : x.claimSlot = none) (k : x.statusSlot = true) : x.beginSeize.transmitter = .seizing ∧ x.beginSeize.claimSlot = none ∧ x.beginSeize.statusSlot = true := by
  unfold SpanLine.beginSeize
  split
  · rename_i e; exact ⟨e, h, k⟩
  · rename_i f e
    dsimp only
    obtain ⟨a, b, c, d, -⟩ := release_slots (x.returnAbandoned f)
    refine ⟨rfl, ?_, ?_⟩
    · show (x.returnAbandoned f).release.claimSlot = none
      rw [a]; unfold SpanLine.returnAbandoned; split <;> exact h
    · show (x.returnAbandoned f).release.statusSlot = true
      rw [c]; unfold SpanLine.returnAbandoned; split <;> first | exact k | rfl
  · exact ⟨rfl, h, k⟩

theorem abandon_facts (x : SpanLine) (h : x.claimSlot = none) (k : x.statusSlot = true) : x.abandonClaimFrame.claimSlot = none ∧ x.abandonClaimFrame.statusSlot = true ∧ (∀ f, x.transmitter = .sending f → x.abandonClaimFrame.transmitter = (match f.kind with | .claim _ => .released | .answer _ => .sending f | .status => .sending f)) := by
  obtain ⟨a, b, c, d, -⟩ := release_slots x
  unfold SpanLine.abandonClaimFrame
  split
  · rename_i g e
    split
    · rename_i cc ec; refine ⟨by rw [a, h], by rw [c, k], ?_⟩
      intro f hf; rw [e] at hf; cases hf; rw [ec, d]
    · rename_i cc ec; refine ⟨h, k, ?_⟩
      intro f hf; rw [e] at hf; cases hf; rw [ec]; exact e
    · rename_i ec; refine ⟨h, k, ?_⟩
      intro f hf; rw [e] at hf; cases hf; rw [ec]; exact e
  · rename_i e; refine ⟨h, k, ?_⟩; intro f hf; rw [e] at hf; cases hf
  · rename_i e; refine ⟨h, k, ?_⟩; intro f hf; rw [e] at hf; cases hf

/-- what release leaves of the lines -/
theorem release_lines (x : SpanLine) : x.release.lineA = x.lineA ∧ x.release.lineB = x.lineB
    ∧ (x.answerClashes = 0 → x.release.answerClashes = 0) := by
  unfold SpanLine.release; dsimp only; split
  · exact ⟨rfl, rfl, fun _ => rfl⟩
  · exact ⟨rfl, rfl, id⟩

theorem returnAbandoned_lines (x : SpanLine) f : (x.returnAbandoned f).lineA = x.lineA
    ∧ (x.returnAbandoned f).lineB = x.lineB := by
  unfold SpanLine.returnAbandoned; split <;> exact ⟨rfl, rfl⟩

theorem discard_dropped (y : LineState) : y.discardCollection = y.dropped := by
  unfold LineState.discardCollection LineState.dropped
  split <;> rfl

/-- the ANSWER slot and the lines at a seize -/
theorem beginSeize_lines (x : SpanLine) : x.beginSeize.answerSlot = x.answerAfterHalt true
    ∧ (∀ l, x.beginSeize.lineState l = if x.transmitter ≠ .seizing then (x.lineState l).dropped else x.lineState l)
    ∧ ∀ f a, x.transmitter = .sending f → f.kind = .answer a → x.answerSlot ≠ none →
        x.beginSeize.answerClashes = 0 := by
  unfold SpanLine.beginSeize
  split
  · rename_i e
    refine ⟨by simp [SpanLine.answerAfterHalt, e], fun l => by rw [if_neg (fun k => k e)], fun f a k => ?_⟩
    rw [e] at k; cases k
  · rename_i g e
    obtain ⟨a1, a2, a3⟩ := release_lines (x.returnAbandoned g)
    obtain ⟨b1, b2⟩ := returnAbandoned_lines x g
    refine ⟨?_, fun l => ?_, fun f a k ka kn => ?_⟩
    · show (x.returnAbandoned g).release.answerSlot = _
      rw [(release_slots _).2.1]; unfold SpanLine.returnAbandoned
      split <;> rename_i ek <;> simp [SpanLine.answerAfterHalt, e, ek]
    · rw [if_pos (by rw [e]; intro q; cases q)]
      cases l
      · show (x.returnAbandoned g).release.lineA.discardCollection = _
        rw [a1, b1, discard_dropped]; rfl
      · show (x.returnAbandoned g).release.lineB.discardCollection = _
        rw [a2, b2, discard_dropped]; rfl
    · rw [e] at k; cases k
      show (x.returnAbandoned g).release.answerClashes = 0
      apply a3
      unfold SpanLine.returnAbandoned; rw [ka]
      show (if x.answerSlot.isSome = true then 0 else x.answerClashes) = 0
      rw [if_pos (by cases h : x.answerSlot; exact absurd h kn; rfl)]
  · rename_i e
    refine ⟨by simp [SpanLine.answerAfterHalt, e], fun l => ?_, fun f a k => ?_⟩
    · rw [if_pos (by rw [e]; intro q; cases q)]
      cases l
      · exact discard_dropped _
      · exact discard_dropped _
    · rw [e] at k; cases k

/-- the ANSWER slot and the lines where no seize is ordered -/
theorem abandon_lines (x : SpanLine) : x.abandonClaimFrame.answerSlot = x.answerAfterHalt false
    ∧ ∀ l, x.abandonClaimFrame.lineState l = x.lineState l := by
  obtain ⟨a1, a2, -⟩ := release_lines x
  have rl : ∀ l, x.release.lineState l = x.lineState l := by intro l; cases l; exact a1; exact a2
  unfold SpanLine.abandonClaimFrame
  split
  · rename_i g e
    split <;> rename_i ek
    · exact ⟨by rw [(release_slots x).2.1]; simp [SpanLine.answerAfterHalt, e, ek], rl⟩
    · exact ⟨by simp [SpanLine.answerAfterHalt, e, ek], fun _ => rfl⟩
    · exact ⟨by simp [SpanLine.answerAfterHalt, e, ek], fun _ => rfl⟩
  · rename_i e; exact ⟨by simp [SpanLine.answerAfterHalt, e], fun _ => rfl⟩
  · rename_i e; exact ⟨by simp [SpanLine.answerAfterHalt, e], fun _ => rfl⟩

theorem recordOf_empty (h : HoldTable) p : HoldTable.recordOf { h with records := Vector.replicate 32 none } p = none := by
  simp [HoldTable.recordOf, Vector.get_eq_getElem]

/-- what trimming keeps -/
theorem trim_eq (s : State) c : s.trimForHalt c = s.setLine (s.trimForHalt c).line := by
  unfold State.trimForHalt; split <;> rfl

theorem haltsWith_enter (s : State) c o (ho : s.drive.runOutput = decide (s.drive.state = .run)) : s.HaltsWith (s.enterHalted c o) c o s.drive.state := by
  generalize hu : s.setHalt { s.halt with latched := true, record := s.haltRecordFor c o } = u
  have e : s.enterHalted c o = (u.transition .halted).trimForHalt c := by rw [← hu]; rfl
  have us : u.drive = s.drive := by rw [← hu]; rfl
  generalize hv : u.transition .halted = v at e
  have vl : v.line.claimSlot = none ∧ v.line.statusSlot = true ∧ v.line.transmitter = s.line.transmitter := by
    rw [← hv, State.transition_line]; simp [← hu]
  have t1 := trim_eq v c
  rw [e]
  have dr : (v.trimForHalt c).drive = v.drive := by rw [t1]; rfl
  have ha : (v.trimForHalt c).halt = v.halt := by rw [t1]; rfl
  have hh : (v.trimForHalt c).holds = v.holds := by rw [t1]; rfl
  have hc : (v.trimForHalt c).claim = v.claim := by rw [t1]; rfl
  have vx : v.line = { s.line with claimSlot := none, statusSlot := true } := by
    rw [← hv, State.transition_line]; simp [← hu]
  constructor
  · rw [dr, ← hv, State.transition_drive_state]
  · rw [dr, ← hv, State.transition_runOutput, us]; simp [ho]
  · rw [dr, ← hv]; simp [State.transition, stageLamp_drive, DriveControl.setLamp]
  · intro k; rw [dr, ← hv, State.transition_rest, us]; simp [k]
  · intro k; rw [dr, ← hv, State.transition_dwellTimer, us]; simp [k]
  · intro k
    have ho : (v.trimForHalt c).orders = v.orders := by rw [t1]; rfl
    rw [ho, ← hv, State.transition_orders, us]; simp [k]
  · intro k
    have hs : (v.trimForHalt c).stride = v.stride := by rw [t1]; rfl
    rw [hs, ← hv, State.transition_stride, StrideMonitor.atTransition_retryPause, us]; simp [k]
  · have hp : (v.trimForHalt c).pace = v.pace := by rw [t1]; rfl
    have up : u.pace = s.pace ∧ u.isPacer = s.isPacer := by rw [← hu]; exact ⟨rfl, rfl⟩
    rw [hp, ← hv, State.transition_pace, up.1, up.2]
    cases s.isPacer <;> rfl
  · rw [ha, ← hv, State.transition_halt]; simp [← hu]
  · rw [ha, ← hv, State.transition_halt]; simp
  · rw [ha, ← hv, State.transition_halt]; simp [← hu, State.haltRecordFor]
  · intro p; rw [hh, ← hv, State.transition_holds]; simp [HoldTable.recordOf, Vector.get_eq_getElem]
  · rw [hc, ← hv, State.transition_claim]; simp
  · unfold State.trimForHalt
    split
    · obtain ⟨-, b, d⟩ := beginSeize_facts v.line vl.1 vl.2.1; exact ⟨b, d⟩
    · obtain ⟨b, d, -⟩ := abandon_facts v.line vl.1 vl.2.1; exact ⟨b, d⟩
  · intro k; unfold State.trimForHalt; rw [if_pos k]; exact (beginSeize_facts v.line vl.1 vl.2.1).1
  · intro k f hf; unfold State.trimForHalt; rw [if_neg (by rw [k]; decide)]
    exact (abandon_facts v.line vl.1 vl.2.1).2.2 f (by rw [vl.2.2]; exact hf)
  · have : v.line.answerAfterHalt c.seizes = s.line.answerAfterHalt c.seizes := by rw [vx]; rfl
    rw [← this]; unfold State.trimForHalt; split
    · rename_i k; rw [k]; exact (beginSeize_lines v.line).1
    · rename_i k; rw [Bool.eq_false_iff.mpr k]; exact (abandon_lines v.line).1
  · intro k f a h1 h2 h3
    unfold State.trimForHalt; rw [if_pos k]
    exact (beginSeize_lines v.line).2.2 f a (by rw [vx]; exact h1) h2 (by rw [vx]; exact h3)
  · intro l
    have vll : v.line.lineState l = s.line.lineState l := by rw [vx]; cases l <;> rfl
    unfold State.trimForHalt; split
    · rename_i k
      have := (beginSeize_lines v.line).2.1 l
      rw [vl.2.2, vll] at this
      refine this.trans ?_
      by_cases z : s.line.transmitter = .seizing
      · rw [if_neg (fun q => q z), if_neg (fun q => q.2 z)]
      · rw [if_pos z, if_pos ⟨k, z⟩]
    · rename_i k
      rw [if_neg (fun q => k q.1)]
      exact ((abandon_lines v.line).2 l).trans vll

theorem haltsWith_raise (s : State) c o (ho : s.drive.runOutput = decide (s.drive.state = .run)) (k : c.latchesIn s.drive.state = true) : s.HaltsWith (s.raiseHalt c o) c o s.drive.state := by
  unfold State.raiseHalt
  rw [if_neg (HaltCause.latchesIn_ne k).2, if_pos k]; exact haltsWith_enter s c o ho

/-- HaltsWith reads few things of its first state -/
theorem haltsWith_congr {s u t : State} {c o p} (h : s.HaltsWith t c o p) (a : u.drive.state = .run
    → s.drive.state = .run) (b : u.headerOrder = s.headerOrder) (d : u.localTime = s.localTime) (e : u.governor.lead = s.governor.lead) (f : u.stride.strideCount = s.stride.strideCount) (g : u.line.transmitter = s.line.transmitter)
    (pa : ∀ x, ({ u.pace with running := if u.isPacer = true then false else u.pace.running, pendingPace := x } : PaceTimer)
      = { s.pace with running := if s.isPacer = true then false else s.pace.running, pendingPace := x })
    (an : u.line.answerSlot = s.line.answerSlot) (ln : ∀ l, u.line.lineState l = s.line.lineState l) :
    u.HaltsWith t c o p where
  state := h.state
  output := h.output
  lamp := h.lamp
  rest k := h.rest (a k)
  dwell := h.dwell
  muster := h.muster
  retry := h.retry
  pace := by rw [pa]; exact h.pace
  latched := h.latched
  loop := h.loop
  record := by rw [h.record, b, d, e, f]
  holds := h.holds
  claim := h.claim
  slots := h.slots
  seizes := h.seizes
  quietly k x hx := h.quietly k x (by rw [← g]; exact hx)
  answer := by rw [h.answer]; unfold SpanLine.answerAfterHalt; rw [g, an]
  newer k f x h1 h2 h3 := h.newer k f x (by rw [← g]; exact h1) h2 (by rw [← an]; exact h3)
  lines l := by rw [h.lines l, g, ln]

/-- settling without a misalignment -/
theorem settle_calm {s : State} (k : s.leadBeyondHalt = false) (h : s.settledState ≠ s.drive.state) : s.settle = if s.settledState.isFollowing = true then (s.transition s.settledState).reportLag else s.transition s.settledState := by
  unfold State.settle; rw [if_neg h]
  have ndw : s.settledState ≠ .dwell := fun e => h (by rw [e, Quiet.settledState_dwell s e])
  split
  · rename_i f
    apply followingEntry_calm
    · unfold State.isFollowing; rw [State.transition_drive_state]; exact f
    · rw [← k]; apply leadBeyond_congr; rw [State.transition_governor, if_neg ndw]
  · rename_i f
    unfold State.followingEntry; rw [if_neg]
    unfold State.isFollowing; rw [State.transition_drive_state]; exact f

/-- settling with one -/
theorem settle_beyond {s : State} (k : s.leadBeyondHalt = true) (h : s.settledState ≠ s.drive.state) (f : s.settledState.isFollowing = true) : s.settle = (s.transition s.settledState).reportLag.enterHalted .misalign (some s.own) := by
  unfold State.settle; rw [if_neg h]
  have ndw : s.settledState ≠ .dwell := fun e => h (by rw [e, Quiet.settledState_dwell s e])
  generalize hv : s.transition s.settledState = v
  have vs : v.drive.state = s.settledState := by rw [← hv, State.transition_drive_state]
  have vf : v.isFollowing = true := by unfold State.isFollowing; rw [vs]; exact f
  have vg : v.governor = s.governor := by rw [← hv, State.transition_governor, if_neg ndw]
  obtain ⟨-, -, -, -, -, -, -, -, d, g, -, -, l⟩ :=
      reportReason_claim v .lag (v.governor.lagMark && v.isFollowing && !v.isPacer)
  change v.reportLag.drive = _ at d
  change v.reportLag.governor = _ at g
  change v.reportLag.loader = _ at l
  unfold State.followingEntry; rw [if_pos vf]
  show (if (State.reportLag v).misaligned = true then _ else _) = _
  rw [if_pos]
  · show v.reportLag.raiseHalt .misalign (some v.reportLag.own) = _
    have ow : v.reportLag.own = s.own := by unfold State.own; rw [l, ← hv, State.transition_loader]
    rw [ow]
    unfold State.raiseHalt
    rw [d, vs, if_neg (by intro e; rw [e] at f; cases f), if_pos (by exact f)]
  · unfold State.misaligned
    rw [leadBeyond_congr (g.trans vg), k]
    unfold State.isFollowing at *
    rw [d, vf]; rfl

theorem settle_same {s : State} (h : s.settledState = s.drive.state) : s.settle = s :=
    by unfold State.settle; rw [if_pos h]

theorem settle_state {s : State} (k : s.leadBeyondHalt = false) : s.settle.drive.state = s.settledState := by
  by_cases h : s.settledState = s.drive.state
  · rw [settle_same h, h]
  · rw [settle_calm k h]
    split
    · unfold State.reportLag; rw [State.reportReason_drive, State.transition_drive_state]
    · rw [State.transition_drive_state]

theorem settle_status {s : State} (h : s.settledState ≠ s.drive.state) (o : s.settledState ≠ .offline) : s.settle.line.statusSlot = true := by
  have ts : (s.transition s.settledState).line.statusSlot = true :=
      by rw [State.transition_line, if_neg o]; split <;> rfl
  have rs : (s.transition s.settledState).reportLag.line.statusSlot = true := by
    obtain ⟨-, -, -, -, -, -, -, -, -, -, -, x, -⟩ :=
        reportReason_claim (s.transition s.settledState) .lag ((s.transition s.settledState).governor.lagMark && (s.transition s.settledState).isFollowing && !(s.transition s.settledState).isPacer)
    exact x ts
  by_cases k : s.leadBeyondHalt = true
  · by_cases f : s.settledState.isFollowing = true
    · rw [settle_beyond k h f]
      generalize (s.transition s.settledState).reportLag = v
      unfold State.enterHalted; dsimp only
      generalize hw : State.transition _ _ = w
      have wl : w.line.claimSlot = none ∧ w.line.statusSlot = true := by rw [← hw, State.transition_line]; simp
      unfold State.trimForHalt
      split
      · exact (beginSeize_facts w.line wl.1 wl.2).2.2
      · exact (abandon_facts w.line wl.1 wl.2).2.1
    · unfold State.settle; rw [if_neg h]
      unfold State.followingEntry; rw [if_neg]
      · exact ts
      · unfold State.isFollowing; rw [State.transition_drive_state]; exact f
  · have k' : s.leadBeyondHalt = false := by cases hh : s.leadBeyondHalt; rfl; exact absurd hh k
    rw [settle_calm k' h]; split
    · exact rs
    · exact ts

theorem enterHalted_orders (s : State) c o : (s.enterHalted c o).orders = if s.drive.state = .muster then { s.orders with musterTimer := none, counting := false, blocker := none } else s.orders := by
  generalize hu : s.setHalt { s.halt with latched := true, record := s.haltRecordFor c o } = u
  have e : s.enterHalted c o = (u.transition .halted).trimForHalt c := by rw [← hu]; rfl
  rw [e, trim_eq]
  show (u.transition .halted).orders = _
  rw [State.transition_orders, if_neg (by decide), ← hu]; rfl

theorem enterHalted_pace (s : State) c o : (s.enterHalted c o).pace = if s.isPacer = true then { s.pace with running := false } else s.pace := by
  generalize hu : s.setHalt { s.halt with latched := true, record := s.haltRecordFor c o } = u
  have e : s.enterHalted c o = (u.transition .halted).trimForHalt c := by rw [← hu]; rfl
  rw [e, trim_eq]
  show (u.transition .halted).pace = _
  rw [State.transition_pace, ← hu]; rfl

theorem enterHalted_stride (s : State) c o : (s.enterHalted c o).stride = (if s.drive.state = .run then s.stride.switchOff s.config else s.stride).atTransition s.drive.state .halted := by
  generalize hu : s.setHalt { s.halt with latched := true, record := s.haltRecordFor c o } = u
  have e : s.enterHalted c o = (u.transition .halted).trimForHalt c := by rw [← hu]; rfl
  rw [e, trim_eq]
  show (u.transition .halted).stride = _
  rw [State.transition_stride, ← hu]; rfl

theorem enterHalted_sensor (s : State) c o : (s.enterHalted c o).sensor = s.sensor.atTransition .halted := by
  generalize hu : s.setHalt { s.halt with latched := true, record := s.haltRecordFor c o } = u
  have e : s.enterHalted c o = (u.transition .halted).trimForHalt c := by rw [← hu]; rfl
  rw [e, trim_eq]
  show (u.transition .halted).sensor = _
  rw [State.transition_sensor, ← hu]; rfl

theorem enterHalted_halt (s : State) c o : (s.enterHalted c o).halt = { s.halt with latched := true, record := s.haltRecordFor c o, loopClosed := false } := by
  generalize hu : s.setHalt { s.halt with latched := true, record := s.haltRecordFor c o } = u
  have e : s.enterHalted c o = (u.transition .halted).trimForHalt c := by rw [← hu]; rfl
  rw [e, trim_eq]
  show (u.transition .halted).halt = _
  rw [State.transition_halt, if_pos (.inr rfl), ← hu]; rfl

theorem censusBlocker_congr {s t : State} (a : t.halt.settledSense = s.halt.settledSense) (b : t.governor = s.governor) (c : t.roster = s.roster) (d : t.orders.unset = s.orders.unset) (e : t.orders.number = s.orders.number) (f : t.loader = s.loader) : t.censusBlocker = s.censusBlocker := by
  unfold State.censusBlocker State.ready State.positionMustered State.orderInForce State.towers State.own State.config
  rw [State.isPacer_congr f, a, b, c, d, e, f]

theorem completeCensus_eq (s : State) : ∃ p,
    s.completeCensus = ((s.setOrders { s.orders with musterTimer := none, counting := false, blocker := none }).setPace p).settle ∧ (s.isPacer = true → p.request = s.requestAfterMuster ∧ p = { s.pace with position := 0, pace := s.pace.pendingPace.getD s.pace.pace, pendingPace := none, onLength := s.onLengthAt (s.pace.pendingPace.getD s.pace.pace), request := decide (0 < s.onLengthAt (s.pace.pendingPace.getD s.pace.pace)) }) ∧ (s.isPacer = false → p = s.pace) := by
  generalize ho : ({ s.orders with musterTimer := none, counting := false, blocker := none } : OrderUnit) = o
  have e : s.completeCensus = (if (s.setOrders o).isPacer = true then (s.setOrders o).startPeriod else s.setOrders o).settle := by rw [← ho]; rfl
  have f : (s.setOrders o).isPacer = s.isPacer := rfl
  rw [e, f]
  by_cases k : s.isPacer = true
  · rw [if_pos k]
    refine ⟨_, rfl, fun _ => ⟨?_, rfl⟩, fun h => absurd (h.symm.trans k) (by decide)⟩
    unfold State.requestAfterMuster; rw [if_pos k]; rfl
  · rw [if_neg k]
    exact ⟨s.pace, rfl, fun h => absurd h k, fun _ => rfl⟩

theorem settled_after_census {u : State} (ht : u.topTier = none) (hd : u.drive.state = .muster) (hc : u.orders.counting = false) : u.settledState.isFollowing = true := by
  unfold State.settledState
  rw [ht]
  dsimp only
  rw [hd, hc]
  simp only [reduceCtorEq, false_and, and_false, if_false, Bool.false_eq_true]
  unfold State.movingTier; split_ifs <;> rfl

theorem completeCensus_status {s : State} (ht : s.topTier = none) (hd : s.drive.state = .muster) : s.completeCensus.line.statusSlot = true := by
  obtain ⟨p, e, -⟩ := completeCensus_eq s
  have f := settled_after_census (u :=
      (s.setOrders { s.orders with musterTimer := none, counting := false, blocker := none }).setPace p) ht hd rfl
  rw [e]
  apply settle_status
  · intro h; rw [h] at f; change s.drive.state.isFollowing = true at f; rw [hd] at f; cases f
  · intro h; rw [h] at f; cases f

theorem completeCensus_state {s : State} (ht : s.topTier = none) (hd : s.drive.state = .muster) :
    s.completeCensus.drive.state = s.stateAfterMuster ∧ s.completeCensus.orders.musterTimer = none
        ∧ s.completeCensus.orders.counting = false ∧ s.completeCensus.orders.blocker = none
    ∧ (s.isPacer = true → ∃ r,
        s.completeCensus.pace = { s.pace with running := r, position := 0, pace := s.pace.pendingPace.getD s.pace.pace, pendingPace := none, onLength := s.onLengthAt (s.pace.pendingPace.getD s.pace.pace), request := decide (0 < s.onLengthAt (s.pace.pendingPace.getD s.pace.pace)) }) := by
  obtain ⟨p, e, hp, hp'⟩ := completeCensus_eq s
  have fo := settled_after_census (u :=
      (s.setOrders { s.orders with musterTimer := none, counting := false, blocker := none }).setPace p) ht hd rfl
  rw [e]
  generalize hu : (s.setOrders { s.orders with musterTimer := none, counting := false, blocker := none }).setPace p = u at *
  have ul : u.loader = s.loader := by rw [← hu]; rfl
  have rq : u.runRequest = s.requestAfterMuster := by
    unfold State.runRequest; rw [State.isPacer_congr ul]
    cases k : s.isPacer
    · unfold State.requestAfterMuster; rw [k, ← hu]; rfl
    · rw [← (hp k).1, ← hu]; rfl
  have us : u.settledState = (if s.holds.isEmpty = false then .held else if s.requestAfterMuster = true
      ∧ s.drive.rest = .rested then .run else .wait) := by
    unfold State.settledState
    rw [show u.topTier = none by rw [← hu]; exact ht]
    have a : u.drive.state = .muster := by rw [← hu]; exact hd
    have b : u.orders.counting = false := by rw [← hu]; rfl
    dsimp only
    rw [a, b]
    unfold State.movingTier
    rw [rq, show u.holds = s.holds by rw [← hu]; rfl, show u.drive = s.drive by rw [← hu]; rfl]
    cases s.holds.isEmpty <;> simp
  have ud : u.drive.state = .muster := by rw [← hu]; exact hd
  have lb : u.leadBeyondHalt = s.leadBeyondHalt := by apply leadBeyond_congr; rw [← hu]; rfl
  have n1 : u.settledState ≠ u.drive.state := by rw [ud]; intro h; rw [h] at fo; cases fo
  have n2 : u.settledState ≠ .muster := by rw [← ud]; exact n1
  have uo : u.orders.musterTimer = none ∧ u.orders.counting = false ∧ u.orders.blocker = none :=
      by rw [← hu]; exact ⟨rfl, rfl, rfl⟩
  have up : u.pace = p := by rw [← hu]; rfl
  have pc : ∀ r, s.isPacer = true
      → { p with running := r } = { s.pace with running := r, position := 0, pace := s.pace.pendingPace.getD s.pace.pace, pendingPace := none, onLength := s.onLengthAt (s.pace.pendingPace.getD s.pace.pace), request := decide (0 < s.onLengthAt (s.pace.pendingPace.getD s.pace.pace)) } := by
    intro r k; rw [(hp k).2]
  generalize hv : u.transition u.settledState = v
  have vo : v.orders.musterTimer = none ∧ v.orders.counting = false ∧ v.orders.blocker = none := by
    rw [← hv, State.transition_orders, if_neg n2, ud, if_pos rfl]; exact ⟨rfl, rfl, rfl⟩
  have vp : s.isPacer = true → ∃ r, v.pace = { p with running := r } := by
    intro k; rw [← hv, State.transition_pace, State.isPacer_congr ul, if_pos k, up]; exact ⟨_, rfl⟩
  obtain ⟨-, -, -, -, -, o, -, pp, d, -, -, -, ll⟩ :=
      reportReason_claim v .lag (v.governor.lagMark && v.isFollowing && !v.isPacer)
  change v.reportLag.orders = _ at o
  change v.reportLag.drive = _ at d
  change v.reportLag.pace = _ at pp
  change v.reportLag.loader = _ at ll
  cases hl : u.leadBeyondHalt with
  | false =>
    rw [settle_calm hl n1, if_pos fo, hv, o, d, pp]
    refine ⟨?_, vo.1, vo.2.1, vo.2.2, fun k => ?_⟩
    · rw [← hv, State.transition_drive_state, us]; unfold State.stateAfterMuster; rw [← lb, hl]; simp
    · obtain ⟨r, q⟩ := vp k; exact ⟨r, by rw [q, pc r k]⟩
  | true =>
    rw [settle_beyond hl n1 fo, hv]
    refine ⟨?_, ?_⟩
    · rw [State.enterHalted_state]; unfold State.stateAfterMuster; rw [← lb, hl]; simp
    · have pl : v.reportLag.isPacer = s.isPacer := State.isPacer_congr (by rw [ll, ← hv, State.transition_loader, ul])
      rw [enterHalted_orders, enterHalted_pace, d, if_neg (by rw [← hv, State.transition_drive_state]; exact n2)]
      rw [o]
      refine ⟨vo.1, vo.2.1, vo.2.2, fun k => ?_⟩
      rw [pl, if_pos k, pp]
      obtain ⟨r, q⟩ := vp k
      rw [q]
      exact ⟨_, pc _ k⟩

theorem stateAfterMuster_congr {s t : State} (a : t.governor = s.governor) (b : t.holds.isEmpty = s.holds.isEmpty) (c : t.loader = s.loader) (d : t.pace.pendingPace = s.pace.pendingPace) (e : t.pace.pace = s.pace.pace) (f : t.drive.rest = .rested ↔ s.drive.rest = .rested) : t.stateAfterMuster = s.stateAfterMuster := by
  unfold State.stateAfterMuster State.requestAfterMuster State.onLengthAt State.pacePeriod State.config
  rw [leadBeyond_congr a, b, State.isPacer_congr c, a, c, d, e]
  simp only [f]

theorem satInc_eq16 (x : BitVec 16) : satInc x = if x.toNat < 65535 then x + 1 else x := by
  unfold satInc
  by_cases h : x = BitVec.allOnes 16
  · rw [if_pos h, if_neg (by rw [h]; decide)]
  · rw [if_neg h, if_pos]
    by_contra k; apply h; apply BitVec.eq_of_toNat_eq; have := x.isLt; simp; omega

theorem satInc_eq24 (x : BitVec 24) : satInc x = if x.toNat < 16777215 then x + 1 else x := by
  unfold satInc
  by_cases h : x = BitVec.allOnes 24
  · rw [if_pos h, if_neg (by rw [h]; decide)]
  · rw [if_neg h, if_pos]
    by_contra k; apply h; apply BitVec.eq_of_toNat_eq; have := x.isLt; simp; omega

theorem tick_totals (r : Roster) own : (r.tick own).duplicateTotal = r.duplicateTotal
    ∧ (r.tick own).strangerTotal = r.strangerTotal ∧ (r.tick own).notAcceptedTotal = r.notAcceptedTotal := by
  unfold Roster.tick
  generalize Vector.ofFn _ = v
  exact ⟨rfl, rfl, rfl⟩

end Sys2Proof.Machine
end

