-- ==== Sys2Proof/Laws/Outputs.lean ====
section
/-! SUPPORT. The contactor rest and the DIRECTION output across every operation. -/

open Sys2Proof Sys2Proof.Machine Host

namespace Sys2Proof.Machine

set_option maxHeartbeats 1000000

/-- rest relation -/
def RestGiven (s t : State) : Prop := (s.drive.rest = .resting 10 → t.drive.rest = .resting 10)
    ∧ (s.drive.state = .run → t.drive.state = .run ∨ t.drive.rest = .resting 10)

theorem RestGiven.same {s t : State} (h : t.drive.rest = s.drive.rest) (k : t.drive.state = s.drive.state) : RestGiven s t := ⟨fun x => by rw [h, x], fun x => .inl (by rw [k, x])⟩

theorem restGiven_transition (s : State) d : RestGiven s (s.transition d) := by
  refine ⟨fun h => ?_, fun h => ?_⟩
  · rw [State.transition_rest]; split
    · rfl
    · exact h
  · by_cases k : d = .run
    · left; rw [State.transition_drive_state, k]
    · right; rw [State.transition_rest, if_pos h]

theorem restGiven_keep : Keep RestGiven where
  refl _ := .same rfl rfl
  trans h k := ⟨fun x => k.1 (h.1 x), fun x => by
    rcases h.2 x with y | y
    · exact k.2 y
    · exact .inr (k.1 y)⟩
  halt _ _ := .same rfl rfl
  claim _ _ _ _ := .same rfl rfl
  emptied _ := .same rfl rfl
  line _ _ _ := .same rfl rfl
  pace _ _ _ _ := .same rfl rfl
  choices _ _ := .same rfl rfl
  census _ _ _ _ _ _ := .same rfl rfl
  transition s d _ _ := restGiven_transition s d
  conflict s := by
    unfold State.positionConflict; split
    · exact .same rfl rfl
    · have := restGiven_transition (s.setLoader { s.loader with offlineCause := some .positionConflict }) .offline
      exact ⟨this.1, this.2⟩
  writeOrder s n a d p := by
    unfold State.writeOrder; dsimp only; split <;> exact .same rfl rfl
  refuse _ := .same rfl rfl
  musterTimer _ _ _ := .same rfl rfl
  holdCounts _ _ _ := .same rfl rfl
  holdPut _ _ _ _ := .same rfl rfl
  holdDrop _ _ := .same rfl rfl
  sensor _ _ _ := .same rfl rfl
  stride _ _ _ := .same rfl rfl
  drive _ _ a b := .same b a.state
  localTime _ _ := .same rfl rfl
  sample s b hb := .same rfl rfl
  empty s := .same rfl rfl
  anyLine _ _ := .same rfl rfl
  announced _ _ := .same rfl rfl
  heard _ _ _ _ _ _ := .same rfl rfl
  stranger _ _ _ _ _ := .same rfl rfl
  totals _ _ _ := .same rfl rfl
  aged _ _ _ _ _ _ := .same rfl rfl
  rosterTick s := by generalize s.roster.tick s.own = x; exact .same rfl rfl
  ownFrame _ _ := .same rfl rfl

def SameDirection (s t : State) : Prop := t.drive.direction = s.drive.direction

theorem sameDirection_keep : Keep SameDirection where
  refl _ := rfl
  trans h k := k.trans h
  halt _ _ := rfl
  claim _ _ _ _ := rfl
  emptied _ := rfl
  line _ _ _ := rfl
  pace _ _ _ _ := rfl
  choices _ _ := rfl
  census _ _ _ _ _ _ := rfl
  transition s d h _ := by unfold SameDirection; rw [State.transition_direction, if_neg h]
  conflict s := by
    unfold SameDirection State.positionConflict; split
    · rfl
    · rw [State.transition_direction, if_neg (by decide)]; rfl
  writeOrder s n a d p := by
    unfold State.writeOrder; dsimp only; split <;> rfl
  refuse _ := rfl
  musterTimer _ _ _ := rfl
  holdCounts _ _ _ := rfl
  holdPut _ _ _ _ := rfl
  holdDrop _ _ := rfl
  sensor _ _ _ := rfl
  stride _ _ _ := rfl
  drive _ _ a _ := a.direction
  localTime _ _ := rfl
  sample s b hb := rfl
  empty s := rfl
  anyLine _ _ := rfl
  announced _ _ := rfl
  heard _ _ _ _ _ _ := rfl
  stranger _ _ _ _ _ := rfl
  totals _ _ _ := rfl
  aged _ _ _ _ _ _ := rfl
  rosterTick s := by generalize s.roster.tick s.own = x; rfl
  ownFrame _ _ := rfl

/-- the direction of an order -/
def DirectionGiven (s t : State) : Prop := t.drive.direction = s.drive.direction ∨ (t.drive.state = .dwell
    ∧ t.drive.direction = t.orders.direction)

theorem adopt_dir (s : State) b n a d p : DirectionGiven s (s.adopt b n a d p) := by
  unfold State.adopt; dsimp only
  have w : SameDirection s (s.writeOrder n a d p) := sameDirection_keep.writeOrder s n a d p
  split
  · exact .inl (sameDirection_keep.trans w (sameDirection_keep.trans (sameDirection_keep.raiseHalt _ _ _) (sameDirection_keep.afterAdoption _)))
  · generalize hv : (if (s.writeOrder n a d p).drive.state = .halted
        ∧ a = .clear then (s.writeOrder n a d p).decideClear else s.writeOrder n a d p) = v
    have wv : SameDirection s v := by
      rw [← hv]; split
      · exact sameDirection_keep.trans w (sameDirection_keep.decideClear _)
      · exact w
    unfold State.settleAdopted
    split
    · exact .inl (sameDirection_keep.trans wv (sameDirection_keep.trans (sameDirection_keep.settle _) (sameDirection_keep.afterAdoption _)))
    · split
      · right
        have e : (v.transition .dwell).afterAdoption = v.transition .dwell := by
          unfold State.afterAdoption State.isFollowing; rw [State.transition_drive_state]; rfl
        rw [e, State.transition_drive_state, State.transition_direction, if_pos rfl, State.transition_orders]
        refine ⟨rfl, ?_⟩
        split_ifs <;> rfl
      · split
        · exact .inl (sameDirection_keep.trans wv (sameDirection_keep.trans (sameDirection_keep.enterMuster _) (sameDirection_keep.afterAdoption _)))
        · exact .inl (sameDirection_keep.trans wv (sameDirection_keep.trans (sameDirection_keep.settle _) (sameDirection_keep.afterAdoption _)))

theorem takeOrder_dir (s : State) n a d p : DirectionGiven s (s.takeOrder n a d p) := by
  unfold State.takeOrder
  split
  · split
    · exact adopt_dir _ _ _ _ _ _
    · exact .inl rfl
  · exact .inl rfl
  · exact .inl rfl

theorem catchUp_dir (s : State) n b : DirectionGiven s (s.catchUp n b) := by
  unfold State.catchUp
  split
  · exact .inl rfl
  · split
    · split
      · exact adopt_dir _ _ _ _ _ _
      · exact .inl rfl
      · exact .inl rfl
    · exact .inl rfl

/-- evaluation in DWELL changes nothing of the drive -/
theorem evaluate_dwell {s : State} (h : s.DriveInv) (k : s.drive.state = .dwell) : s.evaluateCensus.drive = s.drive ∧ s.evaluateCensus.orders.direction = s.orders.direction := by
  have hs := h.settled
  have tn := hs.topTier_none (by rw [k]; decide) (by rw [k]; decide) (by rw [k]; decide)
  have dt : s.drive.dwellTimer ≠ none := by
    intro e
    unfold State.Settled State.settledState at hs
    rw [tn, k] at hs; simp [e] at hs
    unfold State.movingTier at hs; split_ifs at hs
  unfold State.evaluateCensus
  split
  · split
    · exact ⟨rfl, rfl⟩
    · obtain ⟨p, e, -⟩ := completeCensus_eq s
      rw [e, settle_same]
      · exact ⟨rfl, rfl⟩
      · generalize hu : (s.setOrders { s.orders with musterTimer := none, counting := false, blocker := none }).setPace p = u
        have a : u.topTier = none := by rw [← hu]; exact tn
        have b : u.drive = s.drive := by rw [← hu]; rfl
        unfold State.settledState; rw [a, b]; dsimp only; rw [if_pos ⟨k, dt⟩, k]
  · exact ⟨rfl, rfl⟩

theorem refine_drive (s : State) h b : (s.refineOrigin h b).drive = s.drive
    ∧ (s.refineOrigin h b).orders = s.orders := by
  unfold State.refineOrigin; dsimp only
  split
  · split <;> exact ⟨rfl, rfl⟩
  · exact ⟨rfl, rfl⟩

theorem receive_dir {s : State} (hi : s.DriveInv) h k fill deliver (f : ∀ u : State, u.DriveInv
    → u.drive.state ≠ .offline
    → DirectionGiven u (deliver u)) : DirectionGiven s (s.receiveGood h k fill deliver) := by
  unfold State.receiveGood
  split
  · exact .inl rfl
  · split
    · exact .inl rfl
    · dsimp only
      have h1 : SameDirection s (s.noteGood h.line) := rfl
      have i1 := driveInv_noteGood hi h.line
      generalize s.noteGood h.line = u at *
      split
      · rename_i ac
        have uo : u.drive.state ≠ .offline := by unfold State.active at ac; simp at ac; exact ac.2
        unfold State.rosterTake; dsimp only
        split
        · exact .inl ((sameDirection_keep.conflict u).trans h1)
        · split
          · exact .inl h1
          · split
            · exact .inl h1
            · split
              · exact .inl h1
              · unfold State.acceptFrame; dsimp only
                have i2 := driveInv_setRoster i1 (u.roster.put h.source (fill ((u.roster.recordOf h.source).heard h.seq)))
                generalize hw : u.setRoster (u.roster.put h.source (fill ((u.roster.recordOf h.source).heard h.seq))) = w at *
                have wd : SameDirection s w := by rw [← hw]; exact h1
                have wo : w.drive.state ≠ .offline := by rw [← hw]; exact uo
                split
                · rcases f w i2 wo with x | x
                  · exact .inl (x.trans wd)
                  · exact .inr x
                · have i3 := State.DriveInv.evaluateCensus i2
                  have wo3 : w.evaluateCensus.drive.state ≠ .offline :=
                      i2.ne_offline wo i3 (State.SameOuter.quiet.evaluateCensus w).loader
                  rcases f _ i3 wo3 with x | x
                  · exact .inl (x.trans ((sameDirection_keep.evaluateCensus w).trans wd))
                  · exact .inr x
      · exact .inl h1

theorem order_dir {s : State} (hi : s.DriveInv) h a d p : DirectionGiven s (s.receiveOrder h a d p) :=
  receive_dir hi _ _ _ _ (fun u _ _ => takeOrder_dir u _ _ _ _)

theorem status_dir {s : State} (hi : s.DriveInv) h b fill : DirectionGiven s (s.receiveGood h .status fill (fun t => t.deliverStatus h b)) := by
  refine receive_dir hi _ _ _ _ (fun u i o => ?_)
  unfold State.deliverStatus; dsimp only
  generalize hv : (if h.source = 0 then u.catchUp h.order b else u.holdFromStatus h b) = v
  have ev : DirectionGiven u v ∧ v.DriveInv := by
    rw [← hv]; split
    · exact ⟨catchUp_dir u _ _, State.DriveInv.catchUp i o _ _⟩
    · unfold State.holdFromStatus
      generalize (if orderUnsetFlag b = true then none else some h.order) = o
      split
      · exact ⟨.inl (State.SameBend.loose.applyClaim u _ _ _).direction, State.DriveInv.applyClaim i _ _ _⟩
      · exact ⟨.inl rfl, i⟩
  obtain ⟨r1, r2⟩ := refine_drive v h b
  have ri := driveInv_refine ev.2 h b
  rcases ev.1 with x | ⟨x, y⟩
  · exact .inl ((sameDirection_keep.evaluateCensus _).trans (by rw [r1]; exact x))
  · right
    have := evaluate_dwell ri (by rw [r1]; exact x)
    rw [this.1, this.2, r1, r2]; exact ⟨x, y⟩

end Sys2Proof.Machine
end

