-- ==== Sys2Proof/Laws/Sensing.lean ====
section
/-! SUPPORT. Bend sensing: the exchange, a good sample, a new lead and a failed exchange. -/

open Sys2Proof Sys2Proof.Machine Host

namespace Sys2Proof.Machine

set_option maxHeartbeats 1000000

structure PortSame (p q : SensorPort) : Prop where
  exchange : q.exchange = p.exchange
  timer : q.sampleTimer = p.sampleTimer
  pend : q.pendingExpiry = p.pendingExpiry
  ready : q.readyTimer = p.readyTimer
  sel : q.select0 = p.select0
  clock : q.clock = p.clock
  sel1 : q.select1 = p.select1
  out : q.dataOut = p.dataOut

theorem PortSame.refl (p) : PortSame p p := ⟨rfl, rfl, rfl, rfl, rfl, rfl, rfl, rfl⟩

theorem PortSame.trans {a b c} (h : PortSame a b) (k : PortSame b c) : PortSame a c := ⟨k.1.trans h.1,
    k.2.trans h.2, k.3.trans h.3, k.4.trans h.4, k.5.trans h.5, k.6.trans h.6, k.7.trans h.7, k.8.trans h.8⟩

theorem atTransition_exch (p : SensorPort) d (h : d ≠ .offline) : PortSame p (p.atTransition d) := by
  unfold SensorPort.atTransition; dsimp only
  rw [if_neg (by rintro ⟨a, -⟩; exact h a)]
  split <;> exact ⟨rfl, rfl, rfl, rfl, rfl, rfl, rfl, rfl⟩

structure Sense (R : State → State → Prop) : Prop extends Quiet R where
  governor : ∀ s g, R s (s.setGovernor g)
  sensor : ∀ s x, PortSame s.sensor x → R s (s.setSensor x)

namespace Sense

variable {R : State → State → Prop} (q : Sense R) (s : State)

include q

theorem emptyWindow : R s s.emptyWindow := q.trans (q.governor s _) (q.leadReports _ _)

theorem sensorHalt : R s s.sensorHalt := q.trans (q.governor s _) (q.haltAfterWithdrawal _ _)

theorem takeSample b : R s (s.takeSample b) := q.trans (q.governor s _) (q.leadReports _ _)

theorem failed : R s s.failedExchange := by
  refine q.trans (q.sensor s s.sensor.countFailure ⟨rfl, rfl, rfl, rfl, rfl, rfl, rfl, rfl⟩) (?_ : R _ (State.failureConsequence (s.setSensor s.sensor.countFailure)))
  generalize s.setSensor s.sensor.countFailure = u
  unfold State.failureConsequence
  split
  · split
    · split
      · exact q.refl u
      · exact q.sensorHalt u
    · split
      · exact q.trans (q.emptyWindow u) (q.trans (q.sensor _ { u.emptyWindow.sensor with faultMark := true } ⟨rfl, rfl, rfl, rfl, rfl, rfl, rfl, rfl⟩) (q.reportSensor _))
      · exact q.sensorHalt u
    · exact q.sensorHalt u
  · split
    · exact q.refl u
    · exact q.emptyWindow u
    · exact q.emptyWindow u

theorem good b : R s (s.goodSample b) :=
  q.trans (q.takeSample s b) (q.trans (q.sensor _ { (s.takeSample b).sensor with consecutiveFailures := 0, faultMark := false } ⟨rfl, rfl, rfl, rfl, rfl, rfl, rfl, rfl⟩) (q.reportSensor _))

theorem judge w : R s (s.judgeWord w) := by
  unfold State.judgeWord; dsimp only
  split
  · exact q.failed s
  · split
    · exact q.failed s
    · exact q.good s _

end Sense

def SameExchange (s t : State) : Prop := t.loader = s.loader ∧ (s.loader.state = .passed
    ∧ s.loader.offlineCause = none → PortSame s.sensor t.sensor)

theorem sameExchange_sense : Sense SameExchange where
  refl _ := ⟨rfl, fun _ => .refl _⟩
  trans h k := ⟨k.1.trans h.1, fun x => (h.2 x).trans (k.2 (by rw [h.1]; exact x))⟩
  halt _ _ := ⟨rfl, fun _ => .refl _⟩
  claim _ _ _ _ := ⟨rfl, fun _ => .refl _⟩
  emptied _ := ⟨rfl, fun _ => .refl _⟩
  line _ _ _ := ⟨rfl, fun _ => .refl _⟩
  pace _ _ _ _ := ⟨rfl, fun _ => .refl _⟩
  choices _ _ := ⟨rfl, fun _ => .refl _⟩
  census _ _ _ _ _ _ := ⟨rfl, fun _ => .refl _⟩
  transition s d _ h := ⟨by simp, fun x => by
    rw [State.transition_sensor]; apply atTransition_exch
    intro e; rcases h e with k | k
    · exact k x.1
    · exact k x.2⟩
  governor _ _ := ⟨rfl, fun _ => .refl _⟩
  sensor _ _ h := ⟨rfl, fun _ => h⟩

theorem outer_sense : Sense State.SameOuter where
  toQuiet := State.SameOuter.quiet
  governor _ _ := ⟨rfl, rfl, rfl, rfl, rfl⟩
  sensor _ _ _ := ⟨rfl, rfl, rfl, rfl, rfl⟩

theorem orders_sense : Sense State.SameOrders where
  toQuiet := State.SameOrders.quiet
  governor _ _ := ⟨rfl, rfl, rfl, rfl, rfl, rfl⟩
  sensor _ _ _ := ⟨rfl, rfl, rfl, rfl, rfl, rfl⟩

theorem lines_sense : Sense (fun s t : State => s.line.SameLines t.line) where
  toQuiet := State.sameLines_quiet
  governor _ _ := .refl _
  sensor _ _ _ := .refl _

theorem sameDirection_sense : Sense SameDirection where
  toQuiet := sameDirection_keep.toQuiet
  governor _ _ := rfl
  sensor _ _ _ := rfl

theorem counts_sense : Sense (fun s t : State => t.stride.SameCounts s.stride) where
  refl _ := ⟨rfl, rfl, rfl, rfl⟩
  trans h k := k.trans h
  halt _ _ := ⟨rfl, rfl, rfl, rfl⟩
  claim _ _ _ _ := ⟨rfl, rfl, rfl, rfl⟩
  emptied _ := ⟨rfl, rfl, rfl, rfl⟩
  line _ _ _ := ⟨rfl, rfl, rfl, rfl⟩
  pace _ _ _ _ := ⟨rfl, rfl, rfl, rfl⟩
  choices _ _ := ⟨rfl, rfl, rfl, rfl⟩
  census _ _ _ _ _ _ := ⟨rfl, rfl, rfl, rfl⟩
  transition s d _ _ := State.transition_counts s d
  governor _ _ := ⟨rfl, rfl, rfl, rfl⟩
  sensor _ _ _ := ⟨rfl, rfl, rfl, rfl⟩

theorem beginExchange_form (s : State) r : s.beginExchange r = { s with sensor := { s.sensor with
          select0 := true, receivedWord := none, pendingExpiry := false, readyPin := r
          sampleTimer := some s.config.samplePeriod.toNat
          exchange := if s.config.readyAsserted r = true then .shifting else .readyWait
          readyTimer := if s.config.readyAsserted r = true then none else some s.config.readyTimeout.toNat
          clock := if s.config.readyAsserted r = true then .running else .low
          dataOut := if s.config.readyAsserted r = true then [s.config.command, 0, 0] else [] } } := by
  unfold State.beginExchange; dsimp only
  split
  · rfl
  · rfl

theorem finish_facts {s : State} (d : s.DriveInv) (f : State → State) (n) (hf : ∀ u, SameExchange u (f u)) :
   (s.drive.state = .offline → s.finishExchange f n = { s with sensor := { s.sensor with
          select0 := false, clock := .low, readyTimer := none, dataOut := [], receivedWord := none, exchange := .stopped
          sampleTimer := none, pendingExpiry := false } })
      ∧ (s.drive.state ≠ .offline → s.sensor.pendingExpiry = false →
          (s.finishExchange f n).sensor.exchange = .resting ∧ (s.finishExchange f n).sensor.select0 = false
              ∧ (s.finishExchange f n).sensor.clock = .low
              ∧ (s.finishExchange f n).sensor.readyTimer = none
          ∧ (s.finishExchange f n).sensor.sampleTimer = s.sensor.sampleTimer
              ∧ (s.finishExchange f n).sensor.pendingExpiry = false ∧ (s.finishExchange f n).sensor.dataOut = [])
      ∧ (s.drive.state ≠ .offline → s.sensor.pendingExpiry = true →
          (s.finishExchange f n).sensor.exchange
            = (if (if s.config.readyPolarity = 0 then n else !n) = true then .shifting else .readyWait)
          ∧ (s.finishExchange f n).sensor.select0 = true
              ∧ (s.finishExchange f n).sensor.sampleTimer = some s.config.samplePeriod.toNat
          ∧ (s.finishExchange f n).sensor.pendingExpiry = false) := by
  unfold State.finishExchange
  refine ⟨fun o => ?_, fun o p => ?_, fun o p => ?_⟩
  · rw [if_pos o]; rfl
  · rw [if_neg o, p]
    obtain ⟨e1, e2⟩ := hf (s.setSensor (s.sensor.endExchange false))
    have := e2 (d.settled.checked o)
    dsimp only
    refine ⟨this.1, this.sel, this.clock, this.ready, this.timer, ?_, this.out⟩
    have q := this.pend
    exact q.trans p
  · rw [if_neg o, p]
    obtain ⟨e1, e2⟩ := hf (s.setSensor (s.sensor.endExchange false))
    dsimp only
    generalize f (s.setSensor (s.sensor.endExchange false)) = v at *
    have vc : v.config = s.config := by unfold State.config; rw [e1]; rfl
    rw [if_pos rfl, beginExchange_form, vc]
    exact ⟨rfl, rfl, rfl, rfl⟩

theorem word_parts (a : BitVec 8) (b : BitVec 16) : (a ++ b : BitVec 24).extractLsb' 0 16 = b
    ∧ (a ++ b : BitVec 24).extractLsb' 16 8 = a := by
  constructor <;> (ext i hi; simp only [BitVec.getElem_extractLsb']; rw [BitVec.getLsbD_append]; simp [hi,
      BitVec.getLsbD_eq_getElem])

theorem sample_form (g : Governor) b d : g.sample b d = { g with
        window := joinWindow g.size g.window b
        lead := some ((joinWindow g.size g.window b).sum.tdiv (joinWindow g.size g.window b).length * d.sign)
        runRequest := if g.levels.start ≤ ((joinWindow g.size g.window b).sum.tdiv (joinWindow g.size g.window b).length * d.sign) then true else if ((joinWindow g.size g.window b).sum.tdiv (joinWindow g.size g.window b).length * d.sign) ≤ g.levels.stop then false else g.runRequest
        lagMark := if g.levels.hold ≤ ((joinWindow g.size g.window b).sum.tdiv (joinWindow g.size g.window b).length * d.sign) then true else if ((joinWindow g.size g.window b).sum.tdiv (joinWindow g.size g.window b).length * d.sign) ≤ g.levels.resume then false else g.lagMark } := by
  unfold Governor.sample; dsimp only
  have : ∃ x y, joinWindow g.size g.window b = x :: y := by
    unfold joinWindow
    split
    · cases g.window <;> exact ⟨_, _, rfl⟩
    · cases g.window.tail <;> exact ⟨_, _, rfl⟩
  obtain ⟨x, y, e⟩ := this
  have l : leadOf (joinWindow g.size g.window b) d = some ((joinWindow g.size g.window b).sum.tdiv (joinWindow g.size g.window b).length * d.sign) := by
    unfold leadOf; rw [e]
  rw [l]; rfl

/-- the whole of a good sample, with the governor it leaves -/
theorem good_step {s : State} (bend : BitVec 16) (ready : Bool) (h : s.sensor.exchange = .shifting) (o : s.drive.state ≠ .offline) (b1 : -1500 ≤ bend.toInt) (b2 : bend.toInt ≤ 1500) :
   ∃ v : State, v = s.setSensor v.sensor ∧ v.sensor.failureTotal = s.sensor.failureTotal
       ∧ v.sensor.faultMark = s.sensor.faultMark ∧
     ∃ z, exec (.shiftComplete (s.config.signature ++ bend) ready) s = .next (((v.takeSample bend.toInt).setSensor { (v.takeSample bend.toInt).sensor with consecutiveFailures := 0, faultMark := false }).reportSensor.setSensor z)
     ∧ z.failureTotal = (((v.takeSample bend.toInt).setSensor { (v.takeSample bend.toInt).sensor with consecutiveFailures := 0, faultMark := false }).reportSensor).sensor.failureTotal
     ∧ z.consecutiveFailures = (((v.takeSample bend.toInt).setSensor { (v.takeSample bend.toInt).sensor with consecutiveFailures := 0, faultMark := false }).reportSensor).sensor.consecutiveFailures
     ∧ z.faultMark = (((v.takeSample bend.toInt).setSensor { (v.takeSample bend.toInt).sensor with consecutiveFailures := 0, faultMark := false }).reportSensor).sensor.faultMark := by
  generalize hw : (s.config.signature ++ bend : BitVec 24) = w
  have w1 : w.extractLsb' 0 16 = bend := by rw [← hw]; exact (word_parts _ _).1
  have w2 : w.extractLsb' 16 8 = s.config.signature := by rw [← hw]; exact (word_parts _ _).2
  simp only [exec, execShiftComplete, if_pos h]
  generalize hx : ({ s.sensor with receivedWord := some w } : SensorPort) = x
  refine ⟨(s.setSensor x).setSensor (x.endExchange false), rfl, ?_, ?_, ?_⟩
  · rw [← hx]; rfl
  · rw [← hx]; rfl
  unfold State.finishExchange
  rw [if_neg (show (s.setSensor x).drive.state ≠ .offline from o)]
  dsimp only
  have e : ((s.setSensor x).setSensor ((s.setSensor x).sensor.endExchange false)).judgeWord w = ((s.setSensor x).setSensor (x.endExchange false)).goodSample bend.toInt := by
    unfold State.judgeWord; dsimp only
    rw [w1, w2, if_neg (by show ¬(s.config.signature ≠ s.config.signature); simp), if_neg (by omega)]
    rfl
  rw [e]
  unfold State.goodSample; dsimp only
  generalize (((s.setSensor x).setSensor (x.endExchange false)).takeSample bend.toInt).setSensor { (((s.setSensor x).setSensor (x.endExchange false)).takeSample bend.toInt).sensor with consecutiveFailures := 0, faultMark := false } = y
  split
  · rw [beginExchange_form]
    exact ⟨_, rfl, rfl, rfl, rfl⟩
  · exact ⟨_, rfl, rfl, rfl, rfl⟩

theorem sensor_counts_quiet : Quiet (fun s t : State => t.sensor.failureTotal = s.sensor.failureTotal) where
  refl _ := rfl
  trans h k := k.trans h
  halt _ _ := rfl
  claim _ _ _ _ := rfl
  emptied _ := rfl
  line _ _ _ := rfl
  pace _ _ _ _ := rfl
  choices _ _ := rfl
  census _ _ _ _ _ _ := rfl
  transition s d _ _ := by rw [State.transition_sensor]; exact (SensorPort.atTransition_counts _ _).1

/-- the LAG reason as presented -/
def LagOk (s : State) : Prop := s.claim.reasons.lag = (s.governor.lagMark && s.isFollowing && !s.isPacer)

theorem reportLag_ok (s : State) : LagOk s.reportLag := by
  obtain ⟨c1, -, -, -, -, -, -, -, d, g, -, -, l⟩ :=
      reportReason_claim s .lag (s.governor.lagMark && s.isFollowing && !s.isPacer)
  change s.reportLag.claim.reasons = _ at c1
  change s.reportLag.drive = _ at d
  change s.reportLag.governor = _ at g
  change s.reportLag.loader = _ at l
  unfold LagOk
  rw [c1, g, State.isPacer_congr l]
  unfold State.isFollowing; rw [d]; rfl

theorem halted_lagOk {s t : State} {c o p} (h : s.HaltsWith t c o p) : LagOk t := by
  unfold LagOk State.isFollowing; rw [h.claim, h.state]; simp [DriveState.isFollowing, ClaimUnit.reset,
      ReasonSet.empty]

theorem transition_output (s : State) (d : DriveState) (h : s.drive.runOutput = decide (s.drive.state = .run)) : (s.transition d).drive.runOutput = decide ((s.transition d).drive.state = .run) := by
  rw [State.transition_runOutput, State.transition_drive_state]
  split_ifs with a b
  · simp [a]
  · simp [a]
  · rw [h]; simp [a, b]

theorem reportLag_drive (s : State) : s.reportLag.drive = s.drive :=
    by unfold State.reportLag; exact State.reportReason_drive _ _ _

theorem reportLag_pace (s : State) : s.reportLag.pace = s.pace := by
  unfold State.reportLag State.reportReason; dsimp only; split <;> rfl

theorem reportLag_rest (s : State) : s.reportLag.line.answerSlot = s.line.answerSlot
    ∧ ∀ l, s.reportLag.line.lineState l = s.line.lineState l := by
  unfold State.reportLag State.reportReason; dsimp only
  split
  · exact ⟨rfl, fun _ => rfl⟩
  · exact ⟨rfl, fun l => by cases l <;> rfl⟩

theorem settle_halts {s : State} (d : s.drive.runOutput = decide (s.drive.state = .run)) (k : s.leadBeyondHalt = true) (h : s.settledState ≠ s.drive.state) (f : s.settledState.isFollowing = true) :
   (s.transition s.settledState).reportLag.HaltsWith s.settle .misalign (some s.own) s.settledState := by
  rw [settle_beyond k h f]
  have := haltsWith_enter (s.transition s.settledState).reportLag .misalign (some s.own) (by rw [reportLag_drive]; exact transition_output s _ d)
  rwa [reportLag_drive, State.transition_drive_state] at this

theorem settledState_new {s : State} (h : s.settledState ≠ s.drive.state) : s.settledState = .idle ∨ s.settledState = .halted ∨ s.settledState = .offline ∨ s.settledState.isFollowing = true := by
  unfold State.settledState at *
  rcases s.topTier_cases with e | e | e | e <;> rw [e] at h ⊢
  · dsimp only at h ⊢
    by_cases a1 : s.drive.state = .dwell ∧ s.drive.dwellTimer ≠ none
    · rw [if_pos a1] at h; exact absurd a1.1.symm h
    · rw [if_neg a1] at h ⊢
      by_cases a2 : s.drive.state = .muster ∧ s.orders.counting = true
      · rw [if_pos a2] at h; exact absurd a2.1.symm h
      · rw [if_neg a2] at h ⊢
        by_cases a3 : s.drive.state = .stalled ∧ s.stride.retryPause ≠ none
        · rw [if_pos a3] at h; exact absurd a3.1.symm h
        · rw [if_neg a3]
          right; right; right
          rcases s.movingTier_cases with t | t | t <;> rw [t] <;> rfl
  · exact .inr (.inr (.inl rfl))
  · exact .inr (.inl rfl)
  · exact .inl rfl

theorem settle_lagOk {s : State} (d : s.drive.runOutput = decide (s.drive.state = .run)) (h : LagOk s) : LagOk s.settle := by
  by_cases k : s.settledState = s.drive.state
  · rw [settle_same k]; exact h
  · by_cases f : s.settledState.isFollowing = true
    · cases b : s.leadBeyondHalt
      · rw [settle_calm b k, if_pos f]; exact reportLag_ok _
      · exact halted_lagOk (settle_halts d b k f)
    · have e : s.settle = s.transition s.settledState := by
        unfold State.settle; rw [if_neg k]
        unfold State.followingEntry; rw [if_neg]
        unfold State.isFollowing; rw [State.transition_drive_state]; exact f
      rw [e]; unfold LagOk State.isFollowing; rw [State.transition_drive_state]
      have f' : s.settledState.isFollowing = false := by cases hh : s.settledState.isFollowing; rfl; exact absurd hh f
      rw [f', State.transition_claim]
      have ndw : s.settledState ≠ .dwell := fun e => k (by rw [e, Quiet.settledState_dwell s e])
      rw [if_pos]
      · simp [ClaimUnit.reset, ReasonSet.empty]
      · rcases settledState_new k with x | x | x | x
        · exact .inl x
        · exact .inr (.inl x)
        · exact .inr (.inr x)
        · exact absurd x f

/-- the census of a follower outside MUSTER leaves all but the Order Unit -/
theorem evaluate_other {s : State} (h : s.DriveInv) (p : s.isPacer = false) (k : s.drive.state ≠ .muster) : ∃ o,
    s.evaluateCensus = s.setOrders o := by
  unfold State.evaluateCensus
  split
  · split
    · exact ⟨_, rfl⟩
    · obtain ⟨q, e, -, hq⟩ := completeCensus_eq s
      rw [hq p] at e
      rw [e, settle_same]
      · exact ⟨_, rfl⟩
      · have hs := h.settled
        unfold State.Settled at hs
        show _ = s.drive.state
        rw [← hs]
        generalize ho : ({ s.orders with musterTimer := none, counting := false, blocker := none } : OrderUnit) = o
        unfold State.settledState
        have t1 : ((s.setOrders o).setPace s.pace).topTier = s.topTier :=
            State.topTier_congr rfl rfl (by rw [← ho]; rfl) (by rw [← ho]; rfl)
        rw [t1]
        cases s.topTier with
        | some x => rfl
        | none =>
          dsimp only
          refine if_congr Iff.rfl rfl (if_congr ⟨fun x => absurd x.1 k, fun x => absurd x.1 k⟩ rfl rfl)
  · exact ⟨s.orders, rfl⟩

theorem evaluate_lagOk {s : State} (h : s.DriveInv) (l : LagOk s) : LagOk s.evaluateCensus := by
  unfold State.evaluateCensus
  split
  · split
    · exact l
    · obtain ⟨q, e, -⟩ := completeCensus_eq s
      rw [e]; apply settle_lagOk
      · exact h.contactor.1
      · exact l
  · exact l

theorem setGovernor_settled_same {s u : State} (h : s.DriveInv) {g : Governor} (e : u = s.setGovernor g) (r : g.runRequest = s.governor.runRequest) : u.settledState = s.drive.state := by
  have : s.SameInputs u := by rw [e]; exact .of_drive rfl rfl rfl rfl rfl rfl rfl rfl rfl r
  rw [this.settledState]; exact h.settled

/-- the settled state after a change of a follower's run request -/
theorem setGovernor_settled {s : State} (h : s.DriveInv) (p : s.isPacer = false) (g : Governor) :
   (s.setGovernor g).settledState = if s.drive.state = .wait then (if g.runRequest = true
       ∧ s.drive.rest = .rested then .run else .wait) else if s.drive.state = .run then (if g.runRequest = true then .run else .wait) else s.drive.state := by
  have hs := h.settled
  unfold State.Settled at hs
  have hq : s.drive.state = .wait ∨ s.drive.state = .run → s.topTier = none :=
      fun k => h.settled.topTier_none (by rcases k with k | k <;> rw [k] <;> decide) (by rcases k with k | k <;> rw [k] <;> decide) (by rcases k with k | k <;> rw [k] <;> decide)
  unfold State.settledState State.movingTier State.runRequest at *
  have t1 : (s.setGovernor g).topTier = s.topTier := State.topTier_congr rfl rfl rfl rfl
  have p1 : (s.setGovernor g).isPacer = false := p
  rw [t1, p1]; rw [p] at hs
  have d1 : (s.setGovernor g).drive = s.drive := rfl
  have d2 : (s.setGovernor g).orders = s.orders := rfl
  have d3 : (s.setGovernor g).stride = s.stride := rfl
  have d4 : (s.setGovernor g).holds = s.holds := rfl
  have d5 : (s.setGovernor g).governor = g := rfl
  rw [d1, d2, d3, d4, d5]
  cases ht : s.topTier with
  | some x =>
    rw [ht] at hs hq; dsimp only at hs ⊢
    rw [if_neg (fun k => by cases hq (.inl k)), if_neg (fun k => by cases hq (.inr k))]; exact hs
  | none =>
    rw [ht] at hs; dsimp only at hs ⊢
    generalize s.drive.state = ds at *
    generalize s.holds.isEmpty = he at *
    generalize g.runRequest = rr at *
    generalize s.governor.runRequest = ro at *
    generalize s.drive.rest = re at *
    cases ds <;> cases he <;> cases rr <;> cases ro <;> cases re <;> simp at hs ⊢ <;> exact hs

theorem halts_setSensor {s t : State} {c o p} (h : s.HaltsWith t c o p) (z : SensorPort) : s.HaltsWith (t.setSensor z) c o p :=
  { h with }

theorem halts_report {s t : State} {c o p} (h : s.HaltsWith t c o p) (r : ClaimReason) : t.reportReason r false = t := by
  unfold State.reportReason; dsimp only
  rw [h.claim]
  show (if ReasonSet.empty.put r false = ReasonSet.empty then t else _) = t
  rw [ReasonSet.put_empty, if_pos rfl]

theorem halts_prior {s t : State} {c o p} (h : s.HaltsWith t c o p) (x : DriveState) (n1 : x ≠ .dwell) (n2 : x ≠ .muster)
    (n3 : x ≠ .stalled) :
    s.HaltsWith (t.setHalt { t.halt with record := { t.halt.record with priorState := x } }) c o x :=
  { h with
    record := by show { t.halt.record with priorState := x } = _; rw [h.record]
    dwell := fun k => absurd k n1
    muster := fun k => absurd k n2
    retry := fun k => absurd k n3 }

theorem halts_choices {s t : State} {c o p} (h : s.HaltsWith t c o p) (n : Nat) : s.HaltsWith (t.setChoices n) c o p :=
  { h with }

/-- A halt on a withdrawal keeps one of the two prior states. -/
theorem withdrawal_halts {u : State} (c : HaltCause) (d : u.drive.runOutput = decide (u.drive.state = .run)) (k : c.latchesIn u.drive.state = true) :
    ∃ prior, u.HaltsWith (u.haltAfterWithdrawal c) c (some u.own) prior
        ∧ (prior = u.drive.state ∨ u.drive.state = .run ∧ u.governor.runRequest = false ∧ prior = .wait) := by
  have h := haltsWith_raise u c (some u.own) d k
  unfold State.haltAfterWithdrawal; dsimp only
  split
  · rename_i w
    refine ⟨_, halts_choices (halts_prior h (if Config.reportTakenFirst u.choices = true then .wait else .run) (by split <;> decide)
      (by split <;> decide) (by split <;> decide)) _, ?_⟩
    split
    · exact .inr ⟨w.1, w.2, rfl⟩
    · exact .inl w.1.symm
  · exact ⟨_, h, .inl rfl⟩

theorem misalign_halts {s u : State} (h : s.DriveInv) (p : s.isPacer = false) {g : Governor} (e : u = s.setGovernor g) (m : u.misaligned = true) :
    ∃ prior, u.HaltsWith u.misalignReports .misalign (some s.own) prior
        ∧ (prior = s.drive.state ∨ s.drive.state = .run ∧ u.governor.runRequest = false ∧ prior = .wait
          ∨ s.drive.state = .wait ∧ u.governor.runRequest = true ∧ s.drive.rest = .rested ∧ prior = .run) := by
  have ow : u.own = s.own := by rw [e]; rfl
  have ud : u.drive = s.drive := by rw [e]; rfl
  have d : u.drive.runOutput = decide (u.drive.state = .run) := by rw [ud]; exact h.contactor.1
  unfold State.misaligned at m
  simp only [Bool.and_eq_true] at m
  unfold State.misalignReports
  split
  · rename_i k
    have ug : u.governor = g := by rw [e]; rfl
    have uw : s.drive.state = .wait ∧ g.runRequest = true ∧ s.drive.rest = .rested := by
      have := setGovernor_settled h p g
      rw [← e, k.1] at this
      have kn := k.2; rw [ud] at kn
      split_ifs at this <;> first | (constructor <;> assumption) | (exfalso; apply kn; simp_all)
    split
    · have hs := settle_halts (s :=
          u.setChoices (u.choices + 1)) d m.2 (by rw [show (u.setChoices (u.choices + 1)).settledState = .run from k.1]; exact fun x => k.2 x.symm) (by rw [show (u.setChoices (u.choices + 1)).settledState = .run from k.1]; rfl)
      rw [show (u.setChoices (u.choices + 1)).settledState = .run from k.1] at hs
      refine ⟨.run, ?_, .inr (.inr ⟨uw.1, by rw [ug]; exact uw.2.1, uw.2.2, rfl⟩)⟩
      rw [show (some (u.setChoices (u.choices + 1)).own) = some s.own from congrArg some ow] at hs
      generalize hv : u.setChoices (u.choices + 1) = v at *
      obtain ⟨-, -, -, -, -, c6, c7, -, c9, c10, c11, -, -⟩ :=
          reportReason_claim (v.transition .run) .lag ((v.transition .run).governor.lagMark && (v.transition .run).isFollowing && !(v.transition .run).isPacer)
      change (v.transition .run).reportLag.orders = _ at c6
      change (v.transition .run).reportLag.stride = _ at c7
      change (v.transition .run).reportLag.drive = _ at c9
      change (v.transition .run).reportLag.governor = _ at c10
      change (v.transition .run).reportLag.line.transmitter = _ at c11
      have outer : v.SameOuter (v.transition .run).reportLag :=
          State.SameOuter.quiet.trans (State.SameOuter.quiet.transition v .run (by decide) (fun e => nomatch e)) (State.SameOuter.quiet.reportLag _)
      have ord : v.SameOrders (v.transition .run).reportLag :=
          State.SameOrders.quiet.trans (State.SameOrders.quiet.transition v .run (by decide) (fun e => nomatch e)) (State.SameOrders.quiet.reportLag _)
      have up : u.isPacer = false := by rw [State.isPacer_congr (s := s) (by rw [e]; rfl)]; exact p
      have tp : (v.transition .run).reportLag.isPacer = false := by
        rw [State.isPacer_congr outer.loader, ← hv]; exact up
      refine haltsWith_congr hs ?_ ?_ ?_ ?_ ?_ ?_ ?_ ?_ ?_
      · intro x; rw [ud, uw.1] at x; cases x
      · unfold State.headerOrder; rw [ord.unset, ord.number, ← hv]; rfl
      · rw [outer.localTime, ← hv]; rfl
      · rw [c10, State.transition_governor, if_neg (by decide), ← hv]; rfl
      · rw [c7, (State.transition_counts v .run).1, ← hv]; rfl
      · rw [c11, State.transition_line]; simp [← hv]
      · intro x
        rw [up, tp, reportLag_pace, State.transition_pace, State.isPacer_congr (s := u) (by rw [← hv]; rfl), up, ← hv]; rfl
      · rw [(reportLag_rest _).1, State.transition_line]; simp [← hv]
      · intro l
        rw [(reportLag_rest _).2, State.transition_line]; simp [← hv]; cases l <;> rfl
    · have := haltsWith_raise (u.setChoices (u.choices + 1)) .misalign (some (u.setChoices (u.choices + 1)).own) d m.1
      refine ⟨_, ?_, .inl (by rw [← ud])⟩
      have z : some (u.setChoices (u.choices + 1)).own = some u.own := rfl
      rw [z] at this
      rw [← ow]
      exact haltsWith_congr this id rfl rfl rfl rfl rfl (fun _ => rfl) rfl (fun _ => rfl)
  · obtain ⟨prior, a, b⟩ := withdrawal_halts .misalign d m.1
    rw [ow] at a; rw [ud] at b
    refine ⟨prior, a, ?_⟩
    rcases b with b | b
    · exact .inl b
    · exact .inr (.inl b)

theorem counting_of_muster {s : State} (h : s.DriveInv) (k : s.drive.state = .muster) : s.orders.counting = true := by
  have hs := h.settled
  have tn := hs.topTier_none (by rw [k]; decide) (by rw [k]; decide) (by rw [k]; decide)
  unfold State.Settled State.settledState at hs
  rw [tn, k] at hs
  cases c : s.orders.counting
  · rw [c] at hs; simp at hs
    rcases s.movingTier_cases with t | t | t <;> rw [t] at hs <;> cases hs
  · rfl

/-- The reports that are no misalignment, at a follower. -/
theorem lead_reports {s u : State} (h : s.DriveInv) (off : s.drive.state ≠ .offline) (p : s.isPacer = false) {g : Governor} (e : u = s.setGovernor g) (m : u.misaligned = false) :
    LagOk (u.leadReports s.governor)
    ∧ (s.drive.state ≠ .muster → (u.leadReports s.governor).drive.state = u.settledState)
    ∧ (s.drive.state = .muster → s.governor.lead.isSome = g.lead.isSome
        → (u.leadReports s.governor).drive.state = .muster)
    ∧ (s.drive.state = .muster → s.governor.lead.isSome ≠ g.lead.isSome → (∀ b, u.censusBlocker = some b
        → (u.leadReports s.governor).drive.state = .muster
        ∧ (u.leadReports s.governor).orders.blocker = some b) ∧ (u.censusBlocker = none
        → (u.leadReports s.governor).drive.state = u.stateAfterMuster)) := by
  have ud : u.drive = s.drive := by rw [e]; rfl
  have ug : u.governor = g := by rw [e]; rfl
  have up : u.isPacer = false := by rw [e]; exact p
  have st := setGovernor_settled h p g
  rw [← e] at st
  have m' : u.isFollowing = true → u.leadBeyondHalt = false := by
    intro x; unfold State.misaligned at m; rw [x] at m; simpa using m
  -- first report
  generalize hv : (if s.governor.runRequest = u.governor.runRequest then u else u.settle) = v
  have us : s.governor.runRequest = u.governor.runRequest → u.settledState = u.drive.state := by
    intro x; rw [ud]; exact setGovernor_settled_same h e (by rw [x, ug])
  have vset : v = u.settle := by
    rw [← hv]; split
    · rename_i x; rw [settle_same (us x)]
    · rfl
  have vd : v.DriveInv := by rw [vset, e]; exact h.settleGovernor g
  have vst : v.drive.state = u.settledState := by
    rw [vset]
    by_cases x : u.settledState = u.drive.state
    · rw [settle_same x, x]
    · refine settle_state ?_
      apply m'
      unfold State.isFollowing
      rw [ud] at x ⊢
      rw [st] at x
      by_cases y : s.drive.state = .wait
      · rw [y]; rfl
      · by_cases w : s.drive.state = .run
        · rw [w]; rfl
        · rw [if_neg y, if_neg w] at x; exact absurd rfl x
  have out : u.SameOuter v := by rw [vset]; exact State.SameOuter.quiet.settle u
  have vp : v.isPacer = false := by rw [State.isPacer_congr out.loader]; exact up
  have vo : v.drive.state ≠ .offline := h.ne_offline off vd (by rw [out.loader, e]; rfl)
  -- LAG
  have wl := reportLag_ok v
  have wd : v.reportLag.DriveInv := vd.reportReason vo _ _
  have wdr : v.reportLag.drive = v.drive := reportLag_drive v
  have eq : u.leadReports s.governor = if s.governor.lead.isSome = g.lead.isSome then v.reportLag else v.reportLag.evaluateCensus := by
    unfold State.leadReports
    rw [m, ← ug, ← hv]; rfl
  rw [eq]
  have wp : v.reportLag.isPacer = false :=
      by rw [State.isPacer_congr (State.SameOuter.quiet.reportLag v).loader]; exact vp
  refine ⟨?_, ?_, ?_, ?_⟩
  · split
    · exact wl
    · exact evaluate_lagOk wd wl
  · intro k
    split
    · rw [wdr, vst]
    · obtain ⟨o, eo⟩ := evaluate_other wd wp (by
        rw [wdr, vst, st]
        split_ifs <;> first | decide | exact k)
      rw [eo]; show v.reportLag.drive.state = _; rw [wdr, vst]
  · intro k x
    rw [if_pos x, wdr, vst, st, k]; simp
  · intro k x
    rw [if_neg x]
    have ss : u.settledState = u.drive.state := by rw [st, ud, k]; simp
    have vu : v = u := by rw [vset, settle_same ss]
    subst vu
    have cnt : s.orders.counting = true := counting_of_muster h k
    obtain ⟨-, -, c3, c4, -, c6, -, c8, -, c10, -, -, c13⟩ :=
        reportReason_claim v .lag (v.governor.lagMark && v.isFollowing && !v.isPacer)
    change v.reportLag.holds = _ at c3
    change v.reportLag.halt = _ at c4
    change v.reportLag.orders = _ at c6
    change v.reportLag.pace = _ at c8
    change v.reportLag.governor = _ at c10
    change v.reportLag.loader = _ at c13
    have cb : v.reportLag.censusBlocker = v.censusBlocker :=
        censusBlocker_congr (by rw [c4]) c10 (State.SameOuter.quiet.reportLag v).roster (by rw [c6]) (by rw [c6]) c13
    have sm : v.reportLag.stateAfterMuster = v.stateAfterMuster :=
        stateAfterMuster_congr c10 (by rw [c3]) c13 (by rw [c8]) (by rw [c8]) (by rw [wdr])
    unfold State.evaluateCensus
    rw [if_pos (by rw [c6, e]; exact cnt), cb]
    refine ⟨fun b hb => ?_, fun hb => ?_⟩
    · rw [hb]; refine ⟨?_, rfl⟩
      show v.reportLag.drive.state = _
      rw [wdr, ud, k]
    · rw [hb]
      show v.reportLag.completeCensus.drive.state = _
      rw [← sm]
      refine (completeCensus_state ?_ ?_).1
      · exact wd.settled.topTier_none (by rw [wdr, ud, k]; decide) (by rw [wdr, ud, k]; decide) (by rw [wdr, ud, k]; decide)
      · rw [wdr, ud, k]

theorem finish_form (s : State) (f : State → State) n (o : s.drive.state ≠ .offline) : ∃ z,
    s.finishExchange f n = (f (s.setSensor (s.sensor.endExchange false))).setSensor z
    ∧ z.failureTotal = (f (s.setSensor (s.sensor.endExchange false))).sensor.failureTotal
    ∧ z.consecutiveFailures = (f (s.setSensor (s.sensor.endExchange false))).sensor.consecutiveFailures
    ∧ z.faultMark = (f (s.setSensor (s.sensor.endExchange false))).sensor.faultMark := by
  unfold State.finishExchange
  rw [if_neg o]; dsimp only
  split
  · rw [beginExchange_form]; exact ⟨_, rfl, rfl, rfl, rfl⟩
  · exact ⟨_, rfl, rfl, rfl, rfl⟩

theorem failed_form {s : State} (i : Instr) (ready : Bool) (word : BitVec 24) (o : s.drive.state ≠ .offline)
    (h : s.sensor.exchange = .readyWait ∧ i = .readyTimeout ready
      ∨ s.sensor.exchange = .shifting ∧ (i = .short ready
        ∨ i = .shiftComplete word ready ∧ (word.extractLsb' 16 8 ≠ s.config.signature
          ∨ (word.extractLsb' 0 16).toInt < -1500 ∨ 1500 < (word.extractLsb' 0 16).toInt))) :
    ∃ x z, x.failureTotal = s.sensor.failureTotal ∧ x.consecutiveFailures = s.sensor.consecutiveFailures
        ∧ exec i s = .next ((s.setSensor x).failedExchange.setSensor z)
        ∧ z.failureTotal = (s.setSensor x).failedExchange.sensor.failureTotal
        ∧ z.consecutiveFailures = (s.setSensor x).failedExchange.sensor.consecutiveFailures
        ∧ z.faultMark = (s.setSensor x).failedExchange.sensor.faultMark := by
  rcases h with ⟨x, rfl⟩ | ⟨x, rfl | ⟨rfl, w⟩⟩
  · simp only [exec, execReadyTimeout, if_pos x]
    obtain ⟨z, e, a, b, c⟩ := finish_form s State.failedExchange ready o
    exact ⟨s.sensor.endExchange false, z, rfl, rfl, by rw [e], a, b, c⟩
  · simp only [exec, execShort, if_pos x]
    generalize hp : ({ s.sensor with readyPin := !s.config.readyAsserted true } : SensorPort) = p
    obtain ⟨z, e, a, b, c⟩ := finish_form (s.setSensor p) State.failedExchange ready o
    exact ⟨p.endExchange false, z, by rw [← hp]; rfl, by rw [← hp]; rfl, by rw [e]; rfl, a, b, c⟩
  · simp only [exec, execShiftComplete, if_pos x]
    generalize hp : ({ s.sensor with receivedWord := some word } : SensorPort) = p
    obtain ⟨z, e, a, b, c⟩ := finish_form (s.setSensor p) (fun u => u.judgeWord word) ready o
    have j : ((s.setSensor p).setSensor ((s.setSensor p).sensor.endExchange false)).judgeWord word = (s.setSensor (p.endExchange false)).failedExchange := by
      unfold State.judgeWord; dsimp only
      show (if word.extractLsb' 16 8 ≠ s.config.signature then (s.setSensor (p.endExchange false)).failedExchange else if (word.extractLsb' 0 16).toInt < -1500 ∨ 1500 < (word.extractLsb' 0 16).toInt then (s.setSensor (p.endExchange false)).failedExchange else (s.setSensor (p.endExchange false)).goodSample _) = _
      split
      · rfl
      · split
        · rfl
        · exfalso; rcases w with w | w <;> contradiction
    rw [j] at e a b c
    exact ⟨p.endExchange false, z, by rw [← hp]; rfl, by rw [← hp]; rfl, by rw [e], a, b, c⟩

theorem satInc_byte (x : BitVec 8) : satInc x = if x = 255 then 255 else x + 1 := by
  unfold satInc
  have : BitVec.allOnes 8 = 255 := by decide
  rw [this]; split
  · assumption
  · rfl

theorem satInc_word (x : BitVec 16) : satInc x = if x = 65535 then 65535 else x + 1 := by
  unfold satInc
  have : BitVec.allOnes 16 = 65535 := by decide
  rw [this]; split
  · assumption
  · rfl

theorem emptied_eq (g : Governor) : g.emptied = { g with window := [], lead := none, runRequest := false, lagMark := false } := rfl

/-- An emptied window withdraws the LAG reason (R35). -/
theorem emptyWindow_lag {u : State} (h : u.DriveInv) (o : u.drive.state ≠ .offline) (p : u.isPacer = false) :
    u.emptyWindow.claim.reasons.lag = false := by
  have mf : (u.setGovernor u.governor.emptied).misaligned = false := by
    unfold State.misaligned
    rw [show (u.setGovernor u.governor.emptied).leadBeyondHalt = false from rfl, Bool.and_false]
  have l := (lead_reports h o p (g := u.governor.emptied) rfl mf).1
  unfold LagOk at l
  rw [(State.SameBend.quiet.leadReports (u.setGovernor u.governor.emptied) u.governor).governor] at l
  exact l

/-- emptying the window of a follower -/
theorem empty_reports {u : State} (h : u.DriveInv) (o : u.drive.state ≠ .offline) (p : u.isPacer = false) :
   u.emptyWindow.drive.state = if u.drive.state = .run then .wait else u.drive.state := by
  have mf : (u.setGovernor u.governor.emptied).misaligned = false := by
    unfold State.misaligned
    have : (u.setGovernor u.governor.emptied).leadBeyondHalt = false := rfl
    rw [this]; simp
  obtain ⟨-, l2, l3, l4⟩ := lead_reports h o p (g := u.governor.emptied) rfl mf
  have e : u.emptyWindow = (u.setGovernor u.governor.emptied).leadReports u.governor := rfl
  rw [← e] at l2 l3 l4
  by_cases k : u.drive.state = .muster
  · rw [if_neg (by rw [k]; decide), k]
    by_cases x : u.governor.lead.isSome = (u.governor.emptied).lead.isSome
    · exact l3 k x
    · obtain ⟨a, b⟩ := l4 k x
      cases c : (u.setGovernor u.governor.emptied).censusBlocker with
      | some z => exact (a z c).1
      | none =>
        exfalso
        unfold State.censusBlocker at c
        split at c
        · cases c
        · rw [if_pos] at c
          · cases c
          · unfold State.ready
            rw [show (u.setGovernor u.governor.emptied).isPacer = false from p]; rfl
  · rw [l2 k, setGovernor_settled h p]
    by_cases w : u.drive.state = .wait
    · rw [if_pos w, if_neg (by rintro ⟨z, -⟩; cases z), if_neg (by rw [w]; decide), w]
    · rw [if_neg w]
      by_cases r : u.drive.state = .run
      · rw [if_pos r, if_pos r, if_neg]; intro z; cases z
      · rw [if_neg r, if_neg r]

end Sys2Proof.Machine
end

