-- ==== Sys2Proof/Laws/Hearing.lean ====
section
/-! SUPPORT. A good frame: what the line and the roster do with it before it is handed on. -/

open Sys2Proof Sys2Proof.Machine Host

namespace Sys2Proof.Machine

set_option maxHeartbeats 1000000

theorem noteGood_eq (s : State) (l : Line) : s.noteGood l = { s with line :=
      { s.line.setLineState l { s.line.lineState l with
          receiver := .idle, characters := [], ownFrame := false, idleTime := max (s.line.lineState l).idleTime 2,
              armed := true
          dominantRun := 0, alive := true, quietTimer := some (10 * s.config.lostLimit.toNat)
          counters := { (s.line.lineState l).counters with
            good := satInc (s.line.lineState l).counters.good } } with
        yieldBias := if l = s.line.sendLine then false else s.line.yieldBias } } := by
  unfold State.noteGood; dsimp only
  generalize hy : (s.modifyLine l fun y => y.takeGood s.config.lostTenths) = u
  unfold SpanLine.hearFrame
  have us : u.line.sendLine = s.line.sendLine := by rw [← hy]; cases l <;> rfl
  have ub : u.line.yieldBias = s.line.yieldBias := by rw [← hy]; cases l <;> rfl
  split
  · rename_i k; rw [if_pos (k.trans us)]; rw [← hy]; rfl
  · rename_i k; rw [if_neg (fun z => k (z.trans us.symm))]; rw [← hy]; cases l <;> rfl

theorem collecting_iff (s : State) : s.collecting = true ↔ s.inReset = false
    ∧ (s.loader.state = .passed ∨ s.loader.state = .failed) ∧ s.line.transmitter ≠ .seizing := by
  unfold State.collecting
  simp only [Bool.and_eq_true, Bool.or_eq_true, decide_eq_true_eq, Bool.not_eq_true']
  tauto

/-- every frame command is one call -/
theorem exec_frame (i : Instr) (h : Header) (k : FrameClass) (e : frameOf i = some (h,
    k)) (s : State) : ∃ fill deliver, exec i s = .next (s.receiveGood h k fill deliver) := by
  cases i <;> first | (cases e; done) | (cases e; exact ⟨_, _, rfl⟩)

theorem hears_collecting {s : State} {h : Header} (hh : s.Hears h) : s.collecting = true := by
  rw [collecting_iff]; exact ⟨hh.noReset, hh.checked, hh.noSeize⟩

theorem noteGood_active (s : State) l : (s.noteGood l).active = s.active := by rw [noteGood_eq]; rfl

theorem receive_hears {s : State} {h : Header} (hh : s.Hears h) k fill deliver : s.receiveGood h k fill deliver = if s.active = true then (s.noteGood h.line).rosterTake h k fill deliver else s.noteGood h.line := by
  unfold State.receiveGood
  rw [if_neg (by rw [hears_collecting hh]; rintro (k | k); · cases k
                 · exact hh.taking k), hh.other, hh.foreign, if_neg (by decide)]
  dsimp only
  rw [noteGood_active]

namespace Loud

variable {R : State → State → Prop} (q : Loud R) (s : State)

include q

theorem refine h b : R s (s.refineOrigin h b) := by
  unfold State.refineOrigin; dsimp only
  split
  · split
    · exact q.halt s _
    · exact q.refl s
  · exact q.refl s

theorem deliverStatus h b : R s (s.deliverStatus h b) := by
  unfold State.deliverStatus; dsimp only
  refine q.trans (q.trans ?_ (q.refine _ _ _)) (q.evaluateCensus _)
  split
  · exact q.catchUp s _ _
  · unfold State.holdFromStatus
    generalize (if orderUnsetFlag b = true then none else some h.order) = o
    split
    · exact q.applyClaim s _ _ _
    · exact q.refl s

theorem deliverHold h b c : R s (s.deliverHold h b c) := by
  unfold State.deliverHold
  split
  · split
    · exact q.applyClaim s _ _ _
    · split
      · exact q.holds s _
      · exact q.refl s
  · exact q.refl s

theorem deliverFree h : R s (s.deliverFree h) := by
  unfold State.deliverFree
  split
  · split
    · exact q.removeHold s _
    · exact q.holds s _
  · exact q.refl s

theorem deliverAsk a b c : R s (s.deliverAsk a b c) := by
  unfold State.deliverAsk
  split
  · exact q.line s _ ⟨.refl _, .refl _⟩
  · exact q.refl s

end Loud

theorem exec_frameOf (i : Instr) (h : Header) (k : FrameClass) (e : frameOf i = some (h,
    k)) (s : State) : ∃ (fill : RosterRecord → RosterRecord) (deliver : State → State), exec i s = .next (s.receiveGood h k fill deliver)
   ∧ (∀ R, Loud R → ∀ u, R u (deliver u))
   ∧ ((∃ b, i = .statusFrame h b ∧ fill = fun r => { r with reported := some (reportedOf h b) }) ∨ fill = id
       ∧ k ≠ .status) := by
  cases i <;> first | (cases e; done) | cases e
  case statusFrame => exact ⟨_, _, rfl, fun R q u => q.deliverStatus u _ _, .inl ⟨_, rfl, rfl⟩⟩
  case runOrder => exact ⟨_, _, rfl, fun R q u => q.takeOrder u _ _ _ _, .inr ⟨rfl, by decide⟩⟩
  case stopOrder => exact ⟨_, _, rfl, fun R q u => q.takeOrder u _ _ _ _, .inr ⟨rfl, by decide⟩⟩
  case clearOrder => exact ⟨_, _, rfl, fun R q u => q.takeOrder u _ _ _ _, .inr ⟨rfl, by decide⟩⟩
  case orderUndefinedAction => exact ⟨_, _, rfl, fun R q u => q.takeOrder u _ _ _ _, .inr ⟨rfl, by decide⟩⟩
  case holdFrame => exact ⟨_, _, rfl, fun R q u => q.deliverHold u _ _ _, .inr ⟨rfl, by decide⟩⟩
  case freeFrame => exact ⟨_, _, rfl, fun R q u => q.deliverFree u _, .inr ⟨rfl, by decide⟩⟩
  case answerFrame => exact ⟨_, _, rfl, fun R q u => q.refl u, .inr ⟨rfl, by decide⟩⟩
  all_goals exact ⟨_, _, rfl, fun R q u => q.deliverAsk u _ _ _, .inr ⟨rfl, by decide⟩⟩

theorem noteGood_other (s : State) l : (s.noteGood l).roster = s.roster ∧ (s.noteGood l).own = s.own
    ∧ (s.noteGood l).towers = s.towers := by
  rw [noteGood_eq]; exact ⟨rfl, rfl, rfl⟩

theorem take_accepts {s : State} {h : Header} {k} (ho : h.source ≠ s.own) (hn : h.source.toNat ≤ s.towers) (hk : k.acceptsFrom h.source = true) (hd : ¬(((s.roster.recordOf h.source).presence = .current ∨ (s.roster.recordOf h.source).presence = .stale)
    ∧ (s.roster.recordOf h.source).lastSeq = some h.seq)) fill deliver : (s.noteGood h.line).rosterTake h k fill deliver = deliver (s.afterHearing h fill) := by
  obtain ⟨a, b, c⟩ := noteGood_other s h.line
  unfold State.rosterTake; dsimp only
  have dup : (s.roster.recordOf h.source).isDuplicate h.seq = false := by
    unfold RosterRecord.isDuplicate; exact decide_eq_false hd
  rw [if_neg (by rw [b]; exact ho), if_neg (by rw [c]; omega), if_neg (by rw [hk]; decide),
      if_neg (by rw [a, dup]; decide)]
  unfold State.acceptFrame State.afterHearing State.heardFrom; dsimp only
  rw [a]

theorem receive_accepts {s : State} {h : Header} {k} (a : s.Accepts h k) fill deliver : s.receiveGood h k fill deliver = deliver (s.afterHearing h fill) := by
  rw [receive_hears a.hears, if_pos a.active, take_accepts a.other a.expected a.listed a.fresh]

theorem heard_eq (r : RosterRecord) (seq : Byte) : (r.heard seq).presence = .current ∧ (r.heard seq).age = 0
    ∧ (r.heard seq).lastSeq = some seq ∧ (r.heard seq).accepted = satInc r.accepted
    ∧ (r.heard seq).expected = r.expected
    ∧ (r.heard seq).reported = (if (r.presence = .current ∨ r.presence = .stale) then r.reported else none) := by
  unfold RosterRecord.heard; simp

theorem afterHearing_roster (s : State) h fill : (s.afterHearing h fill).roster = s.roster.put h.source (fill ((s.roster.recordOf h.source).heard h.seq)) := by
  unfold State.afterHearing
  have : (s.heardFrom h fill).roster = s.roster.put h.source (fill ((s.roster.recordOf h.source).heard h.seq)) := rfl
  split
  · exact this
  · rw [((State.SameOuter.quiet).evaluateCensus _).roster]; exact this

theorem afterHearing_heard (s : State) h fill {R} (q : Quiet R) : R (s.heardFrom h fill) (s.afterHearing h fill) := by
  unfold State.afterHearing; split
  · exact q.refl _
  · exact q.evaluateCensus _

end Sys2Proof.Machine
end

