-- ==== Sys2Proof/Laws/Strides.lean ====
section
/-! SUPPORT. Wheel pulses, the retry pause, the pace period, and the census blocked by a record. -/

open Sys2Proof Sys2Proof.Machine Host

namespace Sys2Proof.Machine

set_option maxHeartbeats 1000000

theorem acceptPulse_form (m : StrideMonitor) (d : Direction) : m.acceptPulse d = { m with filterAsserted := true, wheelHigh := true, heldFor := 20, strideCount := match d with
             | .forward => m.strideCount + 1
             | .reverse => m.strideCount - 1 } := rfl

theorem active_iff (s : State) : s.active = true ↔ s.loader.state = .passed ∧ s.drive.state ≠ .offline := by
  unfold State.active State.checksPassed; simp

theorem stall_tallies (s : State) r p : (s.reportReason r p).stride = s.stride := by
  unfold State.reportReason; dsimp only; split <;> rfl

theorem switchOff_filter (m : StrideMonitor) c : (m.switchOff c).strideCount = m.strideCount
    ∧ (m.switchOff c).filterAsserted = m.filterAsserted ∧ (m.switchOff c).wheelHigh = m.wheelHigh
    ∧ (m.switchOff c).runTime = m.runTime ∧ (m.switchOff c).stallEvents = m.stallEvents := by
  unfold StrideMonitor.switchOff; split <;> exact ⟨rfl, rfl, rfl, rfl, rfl⟩

theorem atTransition_filter (m : StrideMonitor) a b : (m.atTransition a b).strideCount = m.strideCount
    ∧ (m.atTransition a b).filterAsserted = m.filterAsserted ∧ (m.atTransition a b).wheelHigh = m.wheelHigh
    ∧ (m.atTransition a b).runTime = m.runTime ∧ (m.atTransition a b).stallEvents = m.stallEvents := by
  unfold StrideMonitor.atTransition; dsimp only
  refine ⟨?_, ?_, ?_, ?_, ?_⟩ <;> (repeat' (first | rfl | split))

theorem transition_filter (s : State) d : (s.transition d).stride.strideCount = s.stride.strideCount
    ∧ (s.transition d).stride.filterAsserted = s.stride.filterAsserted
    ∧ (s.transition d).stride.wheelHigh = s.stride.wheelHigh ∧ (s.transition d).stride.runTime = s.stride.runTime
    ∧ (s.transition d).stride.stallEvents = s.stride.stallEvents := by
  rw [State.transition_stride]
  generalize hm : (if s.drive.state = .run then s.stride.switchOff s.config else s.stride) = m
  have h1 : m.strideCount = s.stride.strideCount ∧ m.filterAsserted = s.stride.filterAsserted
      ∧ m.wheelHigh = s.stride.wheelHigh ∧ m.runTime = s.stride.runTime ∧ m.stallEvents = s.stride.stallEvents := by
    rw [← hm]; split
    · exact switchOff_filter _ _
    · exact ⟨rfl, rfl, rfl, rfl, rfl⟩
  obtain ⟨a, b, c, e, f⟩ := atTransition_filter (if d = .run then m.switchOn s.config else m) s.drive.state d
  have h2 : (if d = .run then m.switchOn s.config else m).strideCount = m.strideCount
      ∧ (if d = .run then m.switchOn s.config else m).filterAsserted = m.filterAsserted
      ∧ (if d = .run then m.switchOn s.config else m).wheelHigh = m.wheelHigh
      ∧ (if d = .run then m.switchOn s.config else m).runTime = m.runTime
      ∧ (if d = .run then m.switchOn s.config else m).stallEvents = m.stallEvents := by
    split <;> exact ⟨rfl, rfl, rfl, rfl, rfl⟩
  exact ⟨a.trans (h2.1.trans h1.1), b.trans (h2.2.1.trans h1.2.1), c.trans (h2.2.2.1.trans h1.2.2.1),
      e.trans (h2.2.2.2.1.trans h1.2.2.2.1), f.trans (h2.2.2.2.2.trans h1.2.2.2.2)⟩

theorem reportReason_line (s : State) r p : (s.reportReason r p).line.transmitter = s.line.transmitter := by
  unfold State.reportReason; dsimp only; split <;> rfl

theorem stalled_transition_stride (u : State) (h : u.drive.state = .run) : (u.transition .stalled).stride = u.stride.switchOff u.config := by
  rw [State.transition_stride, if_neg (by decide), if_pos h, h]
  rfl

/-- settled state in the station that keeps all inputs but one -/
theorem settled_of_tiers {s : State} (h : s.topTier = none) (a : ¬(s.drive.state = .dwell
    ∧ s.drive.dwellTimer ≠ none)) (b : ¬(s.drive.state = .muster
    ∧ s.orders.counting = true)) (c : ¬(s.drive.state = .stalled
    ∧ s.stride.retryPause ≠ none)) : s.settledState = s.movingTier := by
  unfold State.settledState; rw [h]; dsimp only
  rw [if_neg a, if_neg b, if_neg c]

theorem atTransition_noPause (m : StrideMonitor) a b (h : m.retryPause = none) : (m.atTransition a b).retryPause = none := by
  unfold StrideMonitor.atTransition; dsimp only
  generalize hx : (if a = .stalled then { m with retryPause := none } else m) = x
  have x1 : x.retryPause = none := by rw [← hx]; split; rfl; exact h
  generalize hy : (if b = .dwell ∨ b = .idle ∨ b = .halted ∨ b = .offline then { x with consecutiveStalls := 0, stallMark := false } else x) = y
  have y1 : y.retryPause = none := by rw [← hy]; split <;> exact x1
  generalize hz : (if a = .halted ∧ b = .idle then { y with creepCount := 0 } else y) = z
  have z1 : z.retryPause = none := by rw [← hz]; split <;> exact y1
  split <;> exact z1

theorem transition_noPause (u : State) x (h : u.stride.retryPause = none) : (u.transition x).stride.retryPause = none := by
  rw [State.transition_stride]
  apply atTransition_noPause
  generalize hy : (if u.drive.state = .run then u.stride.switchOff u.config else u.stride) = y
  have y1 : y.retryPause = none := by
    rw [← hy]; split
    · unfold StrideMonitor.switchOff; split <;> exact h
    · exact h
  split <;> exact y1

/-- settling after a change of the pace timer at the pacer -/
theorem setPace_settled {s : State} (d : s.DriveInv) (p : s.isPacer = true) (x : PaceTimer) :
   (s.setPace x).settledState = if s.drive.state = .wait then (if x.request = true
       ∧ s.drive.rest = .rested then .run else .wait) else if s.drive.state = .run then (if x.request = true
       ∧ s.drive.rest = .rested then .run else .wait) else s.drive.state := by
  have h := d.settled
  unfold State.Settled at h
  have rr : (s.setPace x).runRequest = x.request := by
    unfold State.runRequest; rw [show (s.setPace x).isPacer = true from p]; rfl
  have tt : (s.setPace x).topTier = s.topTier := rfl
  unfold State.settledState at h ⊢
  rw [tt]
  cases hs : s.topTier with
  | some y =>
    rw [hs] at h; dsimp only at h ⊢
    rw [← h]
    rcases State.topTier_cases s with e | e | e | e <;> rw [e] at hs <;> cases hs <;> rfl
  | none =>
    rw [hs] at h; dsimp only at h ⊢
    show (if s.drive.state = .dwell ∧ s.drive.dwellTimer ≠ none then _ else if s.drive.state = .muster
        ∧ s.orders.counting = true then _ else if s.drive.state = .stalled
        ∧ s.stride.retryPause ≠ none then _ else (s.setPace x).movingTier) = _
    by_cases c1 : s.drive.state = .dwell ∧ s.drive.dwellTimer ≠ none
    · rw [if_pos c1, c1.1]; rfl
    · rw [if_neg c1] at h ⊢
      by_cases c2 : s.drive.state = .muster ∧ s.orders.counting = true
      · rw [if_pos c2, c2.1]; rfl
      · rw [if_neg c2] at h ⊢
        by_cases c3 : s.drive.state = .stalled ∧ s.stride.retryPause ≠ none
        · rw [if_pos c3, c3.1]; rfl
        · rw [if_neg c3] at h ⊢
          unfold State.movingTier at h ⊢
          rw [rr]
          show (if (!s.holds.isEmpty) = true then _ else if x.request = true
              ∧ s.drive.rest = .rested then _ else _) = _
          by_cases e : (!s.holds.isEmpty) = true
          · rw [if_pos e] at h ⊢; rw [← h]; rfl
          · rw [if_neg e] at h ⊢
            have : s.drive.state = .wait ∨ s.drive.state = .run := by split at h <;> simp [← h]
            rcases this with k | k <;> simp [k]

/-- at a rested pacer in RUN -/
theorem run_rested {s : State} (d : s.DriveInv) (k : s.drive.state = .run) : s.runRequest = true
    ∧ s.drive.rest = .rested := by
  have h := d.settled
  unfold State.Settled State.settledState at h
  rw [d.settled.topTier_none (by rw [k]; decide) (by rw [k]; decide) (by rw [k]; decide), k] at h
  dsimp only at h
  simp only [reduceCtorEq, false_and, if_false] at h
  unfold State.movingTier at h
  split_ifs at h with a b
  exact b

theorem mem_allPositions (p : Position) : p ∈ allPositions := by
  unfold allPositions
  rw [List.mem_map]
  exact ⟨p.toNat, List.mem_range.mpr p.isLt, by simp⟩

theorem blocked_of {s : State} (p : Position) (h : p.toNat ≤ s.towers) (o : p ≠ s.own) (m : s.positionMustered p = false) : ∃ b, s.censusBlocker = some b := by
  unfold State.censusBlocker
  split
  · exact ⟨_, rfl⟩
  · split
    · exact ⟨_, rfl⟩
    · cases hf : allPositions.find? (fun p => decide (p.toNat ≤ s.towers) && decide (p ≠ s.own) && !s.positionMustered p) with
      | some x => exact ⟨_, rfl⟩
      | none =>
        rw [List.find?_eq_none] at hf
        have := hf p (mem_allPositions p)
        simp [h, o, m] at this

/-- not CURRENT: not mustered -/
theorem not_mustered {s : State} {p : Position} (h : (s.roster.recordOf p).presence ≠ .current) : s.positionMustered p = false := by
  unfold State.positionMustered RosterRecord.mustered RosterRecord.onOrder
  split
  · rfl
  · simp [h]

theorem evaluate_blocked (s : State) (h : s.orders.counting = true → ∃ b, s.censusBlocker = some b) : ∃ o,
    s.evaluateCensus = s.setOrders o ∧ o = { s.orders with blocker := o.blocker } ∧ (s.orders.counting = false
    → o = s.orders) ∧ (s.orders.counting = true → o.blocker ≠ none) := by
  unfold State.evaluateCensus
  split
  · rename_i k
    obtain ⟨b, e⟩ := h k
    rw [e]
    exact ⟨_, rfl, rfl, fun z => absurd (k.symm.trans z) (by decide), fun _ => by simp⟩
  · rename_i k
    exact ⟨s.orders, rfl, rfl, fun _ => rfl, fun z => absurd z k⟩

theorem lost_raise {s u t : State} (c : HaltCause) (p : Position) (d : s.DriveInv) (hu : u.drive = s.drive) (hh : u.halt = s.halt) (hc : c = .panelLost ∨ c = .peerLost) (e : t = u.raiseHalt c (some p)) (o : s.drive.state ≠ .offline) :
   (s.drive.state.isUnderway = true → u.HaltsWith t c (some p) s.drive.state)
      ∧ (s.drive.state.isUnderway = false → t.drive = s.drive)
      ∧ (s.drive.state = .idle → t.halt = s.halt)
      ∧ (s.drive.state = .halted → t.halt.record = s.halt.record.addLater c) := by
  refine ⟨fun k => ?_, fun k => ?_, fun k => ?_, fun k => ?_⟩
  · rw [e, ← hu]; apply haltsWith_raise
    · rw [hu]; exact d.contactor.1
    · rw [hu]; rcases hc with rfl | rfl <;> exact k
  · rw [e]; unfold State.raiseHalt; split
    · exact hu
    · split
      · rename_i z
        rw [hu] at z
        rcases hc with rfl | rfl <;> exact absurd (k.symm.trans z) (by decide)
      · exact hu
  · rw [e]; unfold State.raiseHalt; rw [hu, k, if_neg (by decide), if_neg, hh]
    rcases hc with rfl | rfl <;> decide
  · rw [e]; unfold State.raiseHalt; rw [hu, k, if_pos rfl]; show u.halt.record.addLater c = _; rw [hh]

end Sys2Proof.Machine
end

