-- ==== Sys2Proof/Laws/Interface.lean ====
section
/-! SUPPORT. The span line: characters, frames as built, and a clash. -/

open Sys2Proof Sys2Proof.Machine Host

namespace Sys2Proof.Machine

set_option maxHeartbeats 1000000

theorem raise_line (v : State) (c o) : State.SameLines v (v.raiseHalt c o) :=
    .of (State.sameLines_quiet.raiseHalt v c o)

theorem raise_nothing {v : State} {c o} (h : v.drive.state ≠ .halted) (k : c.latchesIn v.drive.state = false) : v.raiseHalt c o = v := by
  unfold State.raiseHalt; rw [if_neg h, if_neg (by rw [k]; decide)]

theorem voted_bit (c : CharacterSamples) (k : Nat) : (voted c).getLsbD k = ((c.seventh.getLsbD k && c.eighth.getLsbD k) || (c.eighth.getLsbD k && c.ninth.getLsbD k)
      || (c.seventh.getLsbD k && c.ninth.getLsbD k)) := by
  unfold voted; simp

/-- A frame of fewer than six characters fails at its lead character, or else at its length (Table 10-2). -/
theorem checkFrame_short {l : List Byte} (h : l.length < 6) :
    checkFrame l = some (if l.head? = some 0xB4 then .format else .framing) := by
  unfold checkFrame
  by_cases k : l.head? = some 0xB4
  · rw [if_neg (fun n => n k), if_pos h, if_pos k]
  · rw [if_pos k, if_neg k]

theorem body_opt (n : Nat) (h : n < 8) : bodyLength n = [12, 3, 2, 0, 3, 10][n]? := by
  interval_cases n <;> rfl

theorem assemble_eq (s : State) (k : FrameKind) (code : BitVec 3) (hc : code = (match k with
      | .status => 0
      | .claim .hold => 2
      | .claim .free => 3
      | .answer _ => 5)) (inner : List Byte) (hi : inner = (code ++ s.own : Byte) :: ((s.roster.recordOf s.own).lastSeq.getD 255 + 1 : Byte) :: (if s.orders.unset = true then 0 else s.orders.number : Byte) :: s.bodyOf k) : (s.buildFrame k).characters = 0xB4 :: inner ++ bytes16 (crcOf inner) := by
  rw [hi, hc]
  unfold State.buildFrame assembleFrame
  cases k with
  | status => rfl
  | claim c => cases c <;> rfl
  | answer a => rfl

theorem head_eq {x : SpanLine} {k : FrameKind} (h : match k with
      | .claim c => x.claimSlot = some c
      | .answer a => x.claimSlot = none ∧ x.answerSlot = some a
      | .status => x.claimSlot = none ∧ x.answerSlot = none ∧ x.statusSlot = true) : x.head = some k := by
  unfold SpanLine.head
  cases k with
  | claim c => simp only at h; rw [h]
  | answer a => simp only at h; rw [h.1, h.2]
  | status => simp only at h; rw [h.1, h.2.1, h.2.2]

theorem bytes16_len (x) : (bytes16 x).length = 2 := rfl

theorem answer_len (s : State) a b : (s.answerData a b).length = 8 := by
  unfold State.answerData
  split
  · split
    · rfl
    · split
      · rfl
      · rfl
    · rfl
    · rfl
    · rfl
    · unfold State.holdBytes; split <;> rfl
    · rfl
    · rfl
    · rfl
  · rfl

theorem body_len (s : State) (k : FrameKind) : (s.bodyOf k).length = (match k with | .status => 12 | .claim .hold => 2 | .claim .free => 0 | .answer _ => 10) := by
  cases k with
  | status => rfl
  | claim c => cases c <;> rfl
  | answer a => unfold State.bodyOf; simp [answer_len]

theorem kind_code (k : FrameKind) (p : Position) : ((BitVec.ofNat 3 k.code ++ p : Byte)).toNat / 32 = k.code := by
  have : k.code < 8 := by cases k with
    | status => decide
    | claim c => cases c <;> decide
    | answer a => exact (by decide : (5 : Nat) < 8)
  rw [BitVec.toNat_append]
  rw [Nat.shiftLeft_eq, ← Nat.shiftLeft_eq, ← Nat.shiftLeft_add_eq_or_of_lt p.isLt, Nat.shiftLeft_eq]
  have := p.isLt
  simp only [BitVec.toNat_ofNat]
  omega

theorem flag_eq (n : Nat) (b : Bool) (h : n < 8) : flagBit n b = if b = true then BitVec.ofNat 8 (2 ^ n) else 0 := by
  unfold flagBit; interval_cases n <;> cases b <;> rfl

theorem countClash_form (x : SpanLine) (k : FrameKind) : (x.countClash k).transmitter = x.transmitter
    ∧ (x.countClash k).sendLine = x.sendLine ∧ (x.countClash k).yieldBias = x.yieldBias
    ∧ (x.countClash k).claimSlot = x.claimSlot ∧ (x.countClash k).answerSlot = x.answerSlot
    ∧ (x.countClash k).statusSlot = x.statusSlot ∧ (x.countClash k).consecutiveClashes = x.consecutiveClashes + 1
    ∧ (x.countClash k).answersDiscarded = x.answersDiscarded ∧ (x.countClash k).changeWaiting = x.changeWaiting
    ∧ (x.countClash k).reportTimer = x.reportTimer
    ∧ (x.countClash k).slotClashes k = (if x.slotTaken k = true then 0 else x.slotClashes k + 1)
   ∧ ((x.countClash k).lineState x.sendLine).counters = { (x.lineState x.sendLine).counters with clashes := satInc (x.lineState x.sendLine).counters.clashes } ∧ (x.countClash k).lineState (otherLine x.sendLine) = x.lineState (otherLine x.sendLine) := by
  unfold SpanLine.countClash SpanLine.setLineState
  dsimp only
  cases x.sendLine <;> cases k <;> exact ⟨rfl, rfl, rfl, rfl, rfl, rfl, rfl, rfl, rfl, rfl, rfl, rfl, rfl⟩

theorem returnClashed_form (x : SpanLine) (k : FrameKind) : (x.returnClashed k).lineA = x.lineA
    ∧ (x.returnClashed k).lineB = x.lineB ∧ (x.returnClashed k).sendLine = x.sendLine
    ∧ (x.returnClashed k).yieldBias = x.yieldBias ∧ (x.returnClashed k).claimClashes = x.claimClashes
    ∧ (x.returnClashed k).answerClashes = x.answerClashes ∧ (x.returnClashed k).statusClashes = x.statusClashes
    ∧ (x.returnClashed k).consecutiveClashes = x.consecutiveClashes
    ∧ (x.returnClashed k).changeWaiting = x.changeWaiting := by
  unfold SpanLine.returnClashed
  cases k with
  | claim c => exact ⟨rfl, rfl, rfl, rfl, rfl, rfl, rfl, rfl, rfl⟩
  | status => exact ⟨rfl, rfl, rfl, rfl, rfl, rfl, rfl, rfl, rfl⟩
  | answer a => dsimp only; split <;> exact ⟨rfl, rfl, rfl, rfl, rfl, rfl, rfl, rfl, rfl⟩

theorem line_cases (x : SpanLine) (l : Line) {y : SpanLine} (a : y.lineA = x.lineA) (b : y.lineB = x.lineB) : y.lineState l = x.lineState l := by
  cases l
  · exact a
  · exact b

theorem conflict_facts {t : State} (h : t.drive.state ≠ .offline) : t.positionConflict.drive.state = .offline
    ∧ t.positionConflict.loader = { t.loader with offlineCause := some .positionConflict }
    ∧ t.positionConflict.line = SpanLine.silence { t.line with claimSlot := none, statusSlot := t.line.statusSlot || !t.claim.reasons.isEmpty } ∧ t.positionConflict.roster = t.roster := by
  unfold State.positionConflict; rw [if_neg h]
  refine ⟨by rw [State.transition_drive_state], by rw [State.transition_loader]; rfl, ?_, by rw [State.transition_roster]; rfl⟩
  rw [State.transition_line, if_pos rfl]; rfl

def clashedClaim (x : SpanLine) (k : FrameKind) : Option ClaimFrame := (match k with
            | .claim c => some (x.claimSlot.getD c)
            | .answer _ => x.claimSlot
            | .status => x.claimSlot)

def clashedAnswer (x : SpanLine) (k : FrameKind) : Option AnswerRequest := (match k with
            | .claim _ => x.answerSlot
            | .answer a => if a.discard = 0 then x.answerSlot else some (x.answerSlot.getD a)
            | .status => x.answerSlot)

def clashedStatus (x : SpanLine) (k : FrameKind) : Bool := (match k with
            | .claim _ => x.statusSlot
            | .answer _ => x.statusSlot
            | .status => true)

def clashedDiscards (x : SpanLine) (k : FrameKind) : BitVec 8 := (match k with
            | .claim _ => x.answersDiscarded
            | .answer a => if a.discard = 0 then satInc x.answersDiscarded else x.answersDiscarded
            | .status => x.answersDiscarded)

/-- The next access gap is measured from the clash, whatever else the clash does. -/
theorem clashed_gap (x : SpanLine) (k : FrameKind) (alternate : Bool) :
    ((((x.countClash k).returnClashed k).release).judgeSlotLimit k alternate).gapFromClash = true := by
  have c : (x.countClash k).gapFromClash = true := by
    unfold SpanLine.countClash SpanLine.setLineState; cases k <;> rfl
  have r : ((x.countClash k).returnClashed k).gapFromClash = true := by
    rw [← c]; unfold SpanLine.returnClashed
    cases k with
    | answer a => dsimp only; split <;> rfl
    | _ => rfl
  have e : (((x.countClash k).returnClashed k).release).gapFromClash = true := by
    rw [← r]; unfold SpanLine.release; dsimp only; split <;> rfl
  rw [← e]; unfold SpanLine.judgeSlotLimit
  split
  · split
    · rfl
    · cases k <;> rfl
  · rfl

/-- the line after a clash -/
structure Clashed (x y : SpanLine) (k : FrameKind) (count : Nat) (alternate : Bool) : Prop where
  released : y.transmitter = .released
  consecutive : y.consecutiveClashes = x.consecutiveClashes + 1
  here : (y.lineState x.sendLine).counters = { (x.lineState x.sendLine).counters with clashes := satInc (x.lineState x.sendLine).counters.clashes }
  there : y.lineState (otherLine x.sendLine) = x.lineState (otherLine x.sendLine)
  waiting : y.changeWaiting = false
  changed : x.changeWaiting = true ∨ 3 ≤ count ∧ alternate = true → y.sendLine = otherLine x.sendLine
      ∧ y.yieldBias = false ∧ y.claimClashes = 0 ∧ y.answerClashes = 0 ∧ y.statusClashes = 0
  same : ¬(x.changeWaiting = true ∨ 3 ≤ count ∧ alternate = true) → y.sendLine = x.sendLine
      ∧ y.yieldBias = x.yieldBias ∧ y.slotClashes k = if 3 ≤ count then 0 else count
  claim : y.claimSlot = (clashedClaim x k)
  answer : y.answerSlot = (clashedAnswer x k)
  status : y.statusSlot = (clashedStatus x k)
  discarded : y.answersDiscarded = (clashedDiscards x k)

theorem clashed (x : SpanLine) (k : FrameKind) (alternate : Bool) : Clashed x ((((x.countClash k).returnClashed k).release).judgeSlotLimit k alternate) k (if x.slotTaken k = true then 0 else x.slotClashes k + 1) alternate := by
  obtain ⟨c1, c2, c3, c4, c5, c6, c7, c8, c9, c10, c11, c12, c13⟩ := countClash_form x k
  generalize x.countClash k = y at *
  obtain ⟨r1, r2, r3, r4, r5, r6, r7, r8, r9⟩ := returnClashed_form y k
  have rc : (y.returnClashed k).slotClashes k = y.slotClashes k := by
    unfold SpanLine.slotClashes; cases k
    · exact r5
    · exact r6
    · exact r7
  have q1 : (y.returnClashed k).claimSlot = (clashedClaim x k) := by
    unfold SpanLine.returnClashed clashedClaim; cases k <;> dsimp only
    · rw [c4]
    · split <;> exact c4
    · exact c4
  have q2 : (y.returnClashed k).answerSlot = (clashedAnswer x k) := by
    unfold SpanLine.returnClashed clashedAnswer; cases k <;> dsimp only
    · exact c5
    · split
      · exact c5
      · rw [c5]
    · exact c5
  have q3 : (y.returnClashed k).statusSlot = (clashedStatus x k) := by
    unfold SpanLine.returnClashed clashedStatus; cases k <;> dsimp only
    · exact c6
    · split <;> exact c6
  have q4 : (y.returnClashed k).answersDiscarded = (clashedDiscards x k) := by
    unfold SpanLine.returnClashed clashedDiscards; cases k <;> dsimp only
    · exact c8
    · split
      · rw [c8]
      · exact c8
    · exact c8
  obtain ⟨z, hz⟩ : ∃ z, z = y.returnClashed k := ⟨_, rfl⟩
  rw [← hz] at r1 r2 r3 r4 r5 r6 r7 r8 r9 rc q1 q2 q3 q4 ⊢
  have l1 : ∀ l, z.lineState l = y.lineState l := fun l => line_cases y l r1 r2
  have base : ∀ w : SpanLine, w.lineA = z.lineA → w.lineB = z.lineB → w.claimSlot = z.claimSlot
      → w.answerSlot = z.answerSlot → w.statusSlot = z.statusSlot → w.answersDiscarded = z.answersDiscarded
      → w.consecutiveClashes = z.consecutiveClashes → w.transmitter = .released → w.changeWaiting = false →
     (x.changeWaiting = true ∨ 3 ≤ (if x.slotTaken k = true then 0 else x.slotClashes k + 1) ∧ alternate = true
         → w.sendLine = otherLine x.sendLine ∧ w.yieldBias = false ∧ w.claimClashes = 0 ∧ w.answerClashes = 0
         ∧ w.statusClashes = 0) →
     (¬(x.changeWaiting = true ∨ 3 ≤ (if x.slotTaken k = true then 0 else x.slotClashes k + 1) ∧ alternate = true)
         → w.sendLine = x.sendLine ∧ w.yieldBias = x.yieldBias
         ∧ w.slotClashes k = if 3 ≤ (if x.slotTaken k = true then 0 else x.slotClashes k + 1) then 0 else (if x.slotTaken k = true then 0 else x.slotClashes k + 1)) →
     Clashed x w k (if x.slotTaken k = true then 0 else x.slotClashes k + 1) alternate := by
    intro w w1 w2 w3 w4 w5 w6 w7 w8 w9 w10 w11
    have lw : ∀ l, w.lineState l = y.lineState l := fun l => (line_cases z l w1 w2).trans (l1 l)
    exact ⟨w8, by rw [w7, r8, c7], by rw [lw]; exact c12, by rw [lw]; exact c13, w9, w10, w11, by rw [w3]; exact q1, by rw [w4]; exact q2, by rw [w5]; exact q3, by rw [w6]; exact q4⟩
  unfold SpanLine.release; dsimp only
  by_cases cw : z.changeWaiting = true
  · rw [if_pos cw]
    have xc : x.changeWaiting = true := by rw [← c9, ← r9]; exact cw
    unfold SpanLine.judgeSlotLimit
    rw [if_neg (by unfold SpanLine.slotClashes SpanLine.changeSendLine; cases k <;> simp)]
    apply base <;> first | rfl | skip
    · intro _; exact ⟨by show otherLine z.sendLine = _; rw [r3, c2], rfl, rfl, rfl, rfl⟩
    · intro n; exact absurd (.inl xc) n
  · rw [if_neg cw]
    have cw' : z.changeWaiting = false := by cases hh : z.changeWaiting; rfl; exact absurd hh cw
    have xc : ¬x.changeWaiting = true := by rw [← c9, ← r9]; exact cw
    generalize hw : ({ z with transmitter := .released } : SpanLine) = w
    have ws : w.slotClashes k = (if x.slotTaken k = true then 0 else x.slotClashes k + 1) := by
      rw [← c11, ← rc, ← hw]; unfold SpanLine.slotClashes; cases k <;> rfl
    have wq : w.sendLine = x.sendLine ∧ w.yieldBias = x.yieldBias := by rw [← hw]; exact ⟨r3.trans c2, r4.trans c3⟩
    unfold SpanLine.judgeSlotLimit
    rw [ws]
    generalize hn : (if x.slotTaken k = true then 0 else x.slotClashes k + 1) = n at *
    by_cases n3 : 3 ≤ n
    · rw [if_pos n3]
      cases alternate with
      | true =>
        rw [if_pos rfl]
        apply base <;> first | (rw [← hw]; rfl) | skip
        · intro _; exact ⟨by show otherLine w.sendLine = _; rw [wq.1], rfl, rfl, rfl, rfl⟩
        · intro m; exact absurd (.inr ⟨n3, rfl⟩) m
      | false =>
        rw [if_neg (by decide)]
        have eq : ∀ {P : SpanLine → Prop}, True → True := fun _ => trivial
        have f : (w.setSlotClashes k 0).lineA = w.lineA ∧ (w.setSlotClashes k 0).lineB = w.lineB
            ∧ (w.setSlotClashes k 0).claimSlot = w.claimSlot ∧ (w.setSlotClashes k 0).answerSlot = w.answerSlot
            ∧ (w.setSlotClashes k 0).statusSlot = w.statusSlot
            ∧ (w.setSlotClashes k 0).answersDiscarded = w.answersDiscarded
            ∧ (w.setSlotClashes k 0).consecutiveClashes = w.consecutiveClashes
            ∧ (w.setSlotClashes k 0).transmitter = w.transmitter
            ∧ (w.setSlotClashes k 0).changeWaiting = w.changeWaiting
            ∧ (w.setSlotClashes k 0).sendLine = w.sendLine ∧ (w.setSlotClashes k 0).yieldBias = w.yieldBias
            ∧ (w.setSlotClashes k 0).slotClashes k = 0 := by
          unfold SpanLine.setSlotClashes; cases k <;> exact ⟨rfl, rfl, rfl, rfl, rfl, rfl, rfl, rfl, rfl, rfl, rfl,
              rfl⟩
        obtain ⟨f1, f2, f3, f4, f5, f6, f7, f8, f9, f10, f11, f12⟩ := f
        apply base
        · rw [f1, ← hw]
        · rw [f2, ← hw]
        · rw [f3, ← hw]
        · rw [f4, ← hw]
        · rw [f5, ← hw]
        · rw [f6, ← hw]
        · rw [f7, ← hw]
        · rw [f8, ← hw]
        · rw [f9, ← hw]; exact cw'
        · rintro (m | m)
          · exact absurd m xc
          · cases m.2
        · intro _; exact ⟨f10.trans wq.1, f11.trans wq.2, by rw [f12, if_pos n3]⟩
    · rw [if_neg n3]
      apply base <;> first | (rw [← hw]; done) | (rw [← hw]; exact cw') | skip
      · rintro (m | m)
        · exact absurd m xc
        · exact absurd m.1 n3
      · intro _; exact ⟨wq.1, wq.2, by rw [ws, if_neg n3]⟩

end Sys2Proof.Machine
end

