-- ==== Sys2Proof/Laws/Holding.lean ====
section
/-! SUPPORT. The census condition by condition, and hold records written, removed and kept. -/

open Sys2Proof Sys2Proof.Machine Host

namespace Sys2Proof.Machine

set_option maxHeartbeats 1000000

theorem mustered_iff (s : State) (p : Position) : s.positionMustered p = true
    ↔ (s.roster.recordOf p).presence = .current ∧ ∃ x number,
      (s.roster.recordOf p).reported = some x ∧ s.orderInForce = some number ∧ x.order = some number
      ∧ (p ≠ 0 → x.ready = true ∧ 3 ≤ x.state.toNat ∧ x.state.toNat ≤ 7) := by
  unfold State.positionMustered RosterRecord.mustered RosterRecord.onOrder
  cases ho : s.orderInForce with
  | none => simp
  | some n =>
    dsimp only
    cases hr : (s.roster.recordOf p).reported with
    | none => split <;> simp
    | some x =>
      split
      · rename_i hp; simp [hp]
      · rename_i hp; simp; tauto

theorem ready_iff (s : State) : s.ready = false ↔ s.own.toNat ≠ s.towers ∧ s.governor.lead = none := by
  unfold State.ready State.isPacer; simp

theorem blocker_cases (s : State) : (s.halt.settledSense = false
    ∧ s.censusBlocker = some .loop) ∨ (s.halt.settledSense = true ∧ s.ready = false
    ∧ s.censusBlocker = some .ownReadiness) ∨ (s.halt.settledSense = true ∧ s.ready = true
    ∧ s.censusBlocker = (allPositions.find? (fun p => decide (p.toNat ≤ s.towers) && decide (p ≠ s.own) && !s.positionMustered p)).map Blocker.position) := by
  unfold State.censusBlocker
  cases s.halt.settledSense <;> cases s.ready <;> simp

theorem allPositions_get (n : Nat) (h : n < 32) : allPositions[n]'(by simpa [allPositions] using h) = BitVec.ofNat 5 n := by
  simp [allPositions]

theorem afterHearing_inv {s : State} (d : s.DriveInv) h fill : (s.afterHearing h fill).DriveInv := by
  have i : (s.heardFrom h fill).DriveInv := driveInv_setRoster (driveInv_noteGood d _) _
  unfold State.afterHearing; split
  · exact i
  · exact i.evaluateCensus

theorem setHolds_settled {s : State} (d : s.DriveInv) (x : HoldTable) :
   (s.setHolds x).settledState = if s.drive.state = .wait ∨ s.drive.state = .run ∨ s.drive.state = .held then (if x.isEmpty = false then .held else if s.runRequest = true ∧ s.drive.rest = .rested then .run else .wait) else s.drive.state := by
  have h := d.settled
  unfold State.Settled at h
  have tt : (s.setHolds x).topTier = s.topTier := rfl
  unfold State.settledState at h ⊢
  rw [tt]
  cases hs : s.topTier with
  | some y =>
    rw [hs] at h; dsimp only at h ⊢
    rw [← h]
    rcases State.topTier_cases s with e | e | e | e <;> rw [e] at hs <;> cases hs <;> rfl
  | none =>
    rw [hs] at h; dsimp only at h ⊢
    show (if s.drive.state = .dwell ∧ s.drive.dwellTimer ≠ none then _ else if s.drive.state = .muster
        ∧ s.orders.counting = true then _ else if s.drive.state = .stalled
        ∧ s.stride.retryPause ≠ none then _ else (s.setHolds x).movingTier) = _
    by_cases c1 : s.drive.state = .dwell ∧ s.drive.dwellTimer ≠ none
    · rw [if_pos c1, c1.1]; rfl
    · rw [if_neg c1] at h ⊢
      by_cases c2 : s.drive.state = .muster ∧ s.orders.counting = true
      · rw [if_pos c2, c2.1]; rfl
      · rw [if_neg c2] at h ⊢
        by_cases c3 : s.drive.state = .stalled ∧ s.stride.retryPause ≠ none
        · rw [if_pos c3, c3.1]; rfl
        · rw [if_neg c3] at h ⊢
          have m : s.drive.state = .wait ∨ s.drive.state = .run ∨ s.drive.state = .held := by
            rcases State.movingTier_cases s with e | e | e <;> rw [e] at h <;> simp [← h]
          rw [if_pos m]
          unfold State.movingTier
          show (if (!x.isEmpty) = true then _ else if s.runRequest = true ∧ s.drive.rest = .rested then _ else _) = _
          cases x.isEmpty <;> rfl

theorem settle_keeps_holds {s : State} (k : s.leadBeyondHalt = false) (h : s.settledState = s.drive.state ∨ s.settledState.isFollowing = true) : s.settle.holds = s.holds := by
  by_cases e : s.settledState = s.drive.state
  · rw [settle_same e]
  · have f := h.resolve_left e
    have hh : (s.transition s.settledState).holds = s.holds := by
      rw [State.transition_holds, if_neg]
      rintro (x | x | x) <;> rw [x] at f <;> cases f
    rw [settle_calm k e, if_pos f]
    obtain ⟨-, -, a, -⟩ := reportReason_claim (s.transition s.settledState) .lag ((s.transition s.settledState).governor.lagMark && (s.transition s.settledState).isFollowing && !(s.transition s.settledState).isPacer)
    exact a.trans hh

theorem moving_empty {s : State} (d : s.DriveInv) (h : s.drive.state = .wait ∨ s.drive.state = .run) : s.holds.isEmpty = true := by
  have a := setHolds_settled d s.holds
  have b : (s.setHolds s.holds).settledState = s.drive.state := d.settled
  rw [b] at a
  cases e : s.holds.isEmpty
  · rw [e] at a; rcases h with h | h <;> rw [h] at a <;> simp at a
  · rfl

theorem held_nonempty {s : State} (d : s.DriveInv) (h : s.drive.state = .held) : s.holds.isEmpty = false := by
  have a := setHolds_settled d s.holds
  have b : (s.setHolds s.holds).settledState = s.drive.state := d.settled
  rw [b] at a
  rw [h] at a; simp at a
  cases e : s.holds.isEmpty
  · rfl
  · rw [e] at a; simp at a; split_ifs at a

/-- A settling after a change of the hold set keeps the set, unless a lead beyond X stands in a following state. -/
theorem setHolds_settle {u : State} (d : u.DriveInv) (m : u.misaligned = false) (x : HoldTable) :
    (u.setHolds x).settle.holds = x ∧ (u.setHolds x).settle.drive.state = (u.setHolds x).settledState := by
  have ss := setHolds_settled d x
  by_cases w : u.drive.state = .wait ∨ u.drive.state = .run ∨ u.drive.state = .held
  · have lb : u.leadBeyondHalt = false := by
      unfold State.misaligned State.isFollowing at m
      rcases w with w | w | w <;> (rw [w] at m; simpa [DriveState.isFollowing] using m)
    refine ⟨?_, settle_state (by exact lb)⟩
    rw [settle_keeps_holds (by exact lb)]; · rfl
    rw [ss, if_pos w]; right
    split
    · rfl
    · split <;> rfl
  · rw [if_neg w] at ss
    rw [settle_same ss]; exact ⟨rfl, ss.symm⟩

/-- writing a hold record -/
theorem writeHold_facts {u : State} (d : u.DriveInv) (m : u.misaligned = false) (p r) :
    (u.writeHold p r).holds = u.holds.put p (some r)
        ∧ (u.writeHold p r).drive.state = if u.drive.state = .wait ∨ u.drive.state = .run then .held else u.drive.state := by
  have ne : (u.holds.put p (some r)).isEmpty = false := HoldTable.isEmpty_false (p := p) (r :=
      r) (by rw [HoldTable.recordOf_put, if_pos rfl])
  have ss := setHolds_settled d (u.holds.put p (some r))
  rw [ne] at ss; simp only [if_true] at ss
  unfold State.writeHold; dsimp only
  split
  · rename_i e
    refine ⟨(setHolds_settle d m _).1, ?_⟩
    · rw [(setHolds_settle d m _).2, ss]
      have nh : u.drive.state ≠ .held := fun h => by rw [held_nonempty d h] at e; cases e
      by_cases w : u.drive.state = .wait ∨ u.drive.state = .run
      · rw [if_pos w, if_pos (by tauto)]
      · rw [if_neg w, if_neg (by tauto)]
  · rename_i e
    refine ⟨rfl, ?_⟩
    show u.drive.state = _
    rw [if_neg]; intro h; exact e (moving_empty d h)

theorem removeHold_facts {u : State} (d : u.DriveInv) (m : u.misaligned = false) (p) :
    (u.removeHold p).holds = u.holds.put p none ∧ (u.removeHold p).drive.state = if u.drive.state = .held ∧ ∀ q,
        q ≠ p → u.holds.recordOf q = none then
            (if u.runRequest = true ∧ u.drive.rest = .rested then .run else .wait) else u.drive.state := by
  unfold State.removeHold
  have emp : (u.holds.put p none).isEmpty = true ↔ ∀ q, q ≠ p → u.holds.recordOf q = none := by
    rw [HoldTable.isEmpty_iff]
    constructor
    · intro h q hq; have := h q; rwa [HoldTable.recordOf_put, if_neg hq] at this
    · intro h q; rw [HoldTable.recordOf_put]; split
      · rfl
      · rename_i hq; exact h q hq
  split
  · rename_i e
    have same : u.holds.put p none = u.holds := by
      have : ∀ (h : HoldTable), h.recordOf p = none → h.put p none = h := by
        rintro ⟨rs, a, b⟩ h
        unfold HoldTable.put
        congr 1
        apply Vector.ext
        intro i hi
        rw [Vector.getElem_set]
        split
        · rename_i k
          have : rs.get (placeOf p) = none := h
          rw [Vector.get_eq_getElem] at this
          subst k; exact this.symm
        · rfl
      exact this _ e
    refine ⟨same.symm, ?_⟩
    rw [if_neg]; rintro ⟨a, b⟩
    have := held_nonempty d a
    rw [← same, emp.mpr b] at this; cases this
  · rename_i r e
    dsimp only
    have ss := setHolds_settled d (u.holds.put p none)
    by_cases em : (u.holds.put p none).isEmpty = true
    · rw [if_pos (by exact em)]
      have em' := emp.mp em
      rw [em] at ss; simp only [Bool.true_eq_false, if_false] at ss
      refine ⟨(setHolds_settle d m _).1, ?_⟩
      · rw [(setHolds_settle d m _).2, ss]
        have ne : ¬(u.drive.state = .wait ∨ u.drive.state = .run) := by
          intro h; have := moving_empty d h
          rw [HoldTable.isEmpty_iff] at this
          rw [this p] at e; cases e
        by_cases k : u.drive.state = .held
        · rw [if_pos (show u.drive.state = .wait ∨ u.drive.state = .run ∨ u.drive.state = .held from .inr (.inr k)),
              if_pos (show u.drive.state = .held ∧ ∀ q, q ≠ p → u.holds.recordOf q = none from ⟨k, em'⟩)]
        · rw [if_neg (show ¬(u.drive.state = .wait ∨ u.drive.state = .run ∨ u.drive.state = .held) by tauto),
              if_neg (show ¬(u.drive.state = .held ∧ ∀ q, q ≠ p → u.holds.recordOf q = none) from fun z => k z.1)]
    · rw [if_neg (by exact em)]
      refine ⟨rfl, ?_⟩
      show u.drive.state = _
      rw [if_neg (fun z => em (emp.mpr z.2))]

theorem removeHold_any {u : State} (p) : (u.removeHold p).holds.recordOf p = none
    ∧ (u.removeHold p).holds.unappliedHold = u.holds.unappliedHold
    ∧ (u.removeHold p).holds.unmatchedFree = u.holds.unmatchedFree := by
  have q : Quiet (fun s t : State => (t.holds.records = s.holds.records ∨ t.holds.records = Vector.replicate 32 none) ∧ t.holds.unappliedHold = s.holds.unappliedHold ∧ t.holds.unmatchedFree = s.holds.unmatchedFree) := {
    refl := fun _ => ⟨.inl rfl, rfl, rfl⟩
    trans := by
      rintro a b c ⟨h1, h2, h3⟩ ⟨k1, k2, k3⟩
      refine ⟨?_, k2.trans h2, k3.trans h3⟩
      rcases k1 with k | k
      · rw [k]; exact h1
      · exact .inr k
    halt := fun _ _ => ⟨.inl rfl, rfl, rfl⟩
    claim := fun _ _ _ _ => ⟨.inl rfl, rfl, rfl⟩
    emptied := fun _ => ⟨.inl rfl, rfl, rfl⟩
    line := fun _ _ _ => ⟨.inl rfl, rfl, rfl⟩
    pace := fun _ _ _ _ => ⟨.inl rfl, rfl, rfl⟩
    choices := fun _ _ => ⟨.inl rfl, rfl, rfl⟩
    census := fun _ _ _ _ _ _ => ⟨.inl rfl, rfl, rfl⟩
    transition := fun s d _ _ => by
      rw [State.transition_holds]; split
      · exact ⟨.inr rfl, rfl, rfl⟩
      · exact ⟨.inl rfl, rfl, rfl⟩ }
  unfold State.removeHold
  split
  · rename_i e; exact ⟨e, rfl, rfl⟩
  · dsimp only
    have b : (u.setHolds (u.holds.put p none)).holds.recordOf p = none := by
      show (u.holds.put p none).recordOf p = none; rw [HoldTable.recordOf_put, if_pos rfl]
    split
    · obtain ⟨h1, h2, h3⟩ := q.settle (u.setHolds (u.holds.put p none))
      refine ⟨?_, h2, h3⟩
      rcases h1 with h | h
      · unfold HoldTable.recordOf at *; rw [h]; exact b
      · unfold HoldTable.recordOf; rw [h]; simp [Vector.get_eq_getElem]
    · exact ⟨b, rfl, rfl⟩

theorem matches_iff (u : State) (h : Header) : u.claimMatches h.source (some h.order) = true ↔ 1 ≤ h.source.toNat
    ∧ h.source.toNat < u.own.toNat ∧ u.orderInForce = some h.order := by
  unfold State.claimMatches; simp; constructor
  · rintro ⟨⟨a, b⟩, c⟩; exact ⟨a, b, c.symm⟩
  · rintro ⟨a, b, c⟩; exact ⟨⟨a, b⟩, c.symm⟩

theorem covering_iff (reasons : Byte) (src own : Position) (reach : Byte) : ((ReasonSet.ofByte reasons).isEmpty = false ∧ covers src reach.toNat own = true) ↔ (reasons.getLsbD 0 = true ∨ reasons.getLsbD 1 = true ∨ reasons.getLsbD 2 = true)
      ∧ src.toNat < own.toNat ∧ own.toNat ≤ src.toNat + reach.toNat := by
  unfold ReasonSet.isEmpty ReasonSet.ofByte covers
  simp only [Bool.not_eq_false', Bool.or_eq_true, decide_eq_true_eq]
  tauto

/-- A blocked census keeps the hold set. -/
theorem blocked_holds {s : State} (h : s.orders.counting = true → s.censusBlocker ≠ none) :
    s.evaluateCensus.holds = s.holds := by
  unfold State.evaluateCensus
  by_cases k : s.orders.counting = true
  · rw [if_pos k]; split
    · rfl
    · rename_i e; exact absurd e (h k)
  · rw [if_neg k]

theorem order_number {u : State} {n : Byte} (h : u.orderInForce = some n) : u.orders.number = n := by
  unfold State.orderInForce at h; split at h
  · cases h
  · exact Option.some.inj h

/-- evaluation keeps the hold set while the lead is below X -/
theorem evaluate_holds {s : State} (d : s.DriveInv) (lb : s.leadBeyondHalt = false) : s.evaluateCensus.holds = s.holds := by
  unfold State.evaluateCensus
  split
  · split
    · rfl
    · obtain ⟨p, e, -, -⟩ := completeCensus_eq s
      rw [e]
      generalize hu : (s.setOrders { s.orders with musterTimer := none, counting := false, blocker := none }).setPace p = u
      have ul : u.leadBeyondHalt = false := by rw [← lb]; apply leadBeyond_congr; rw [← hu]; rfl
      have uh : u.holds = s.holds := by rw [← hu]; rfl
      rw [settle_keeps_holds ul, uh]
      by_cases k : u.settledState = u.drive.state
      · exact .inl k
      · right
        have tt : u.topTier = s.topTier := by rw [← hu]; rfl
        have ud : u.drive = s.drive := by rw [← hu]; rfl
        cases h : s.topTier with
        | none =>
          unfold State.settledState at k ⊢; rw [tt, h] at k ⊢; dsimp only at k ⊢
          split_ifs at k ⊢ with c1 c2 c3
          · exact absurd c1.1.symm k
          · exact absurd c2.1.symm k
          · exact absurd c3.1.symm k
          · rcases State.movingTier_cases u with e | e | e <;> rw [e] <;> rfl
        | some y =>
          exfalso; apply k
          have := d.settled
          unfold State.Settled State.settledState at this
          rw [h] at this
          unfold State.settledState; rw [tt, h, ud]; exact this
  · rfl

theorem holdCounts_quiet : Quiet (fun s t : State => (t.holds.records = s.holds.records ∨ t.holds.records = Vector.replicate 32 none) ∧ t.holds.unappliedHold = s.holds.unappliedHold ∧ t.holds.unmatchedFree = s.holds.unmatchedFree) where
    refl _ := ⟨.inl rfl, rfl, rfl⟩
    trans := by
      rintro a b c ⟨h1, h2, h3⟩ ⟨k1, k2, k3⟩
      refine ⟨?_, k2.trans h2, k3.trans h3⟩
      rcases k1 with k | k
      · rw [k]; exact h1
      · exact .inr k
    halt _ _ := ⟨.inl rfl, rfl, rfl⟩
    claim _ _ _ _ := ⟨.inl rfl, rfl, rfl⟩
    emptied _ := ⟨.inl rfl, rfl, rfl⟩
    line _ _ _ := ⟨.inl rfl, rfl, rfl⟩
    pace _ _ _ _ := ⟨.inl rfl, rfl, rfl⟩
    choices _ _ := ⟨.inl rfl, rfl, rfl⟩
    census _ _ _ _ _ _ := ⟨.inl rfl, rfl, rfl⟩
    transition s d _ _ := by
      rw [State.transition_holds]; split
      · exact ⟨.inr rfl, rfl, rfl⟩
      · exact ⟨.inl rfl, rfl, rfl⟩

theorem settle_top {s : State} {d} (h : s.topTier = some d) (k : d = s.drive.state) : s.settle = s := by
  apply settle_same; unfold State.settledState; rw [h]; exact k

/-- an evaluation in a state that tiers 1 to 3 give changes no halt -/
theorem evaluate_halt {s : State} (d : s.DriveInv) (h : s.drive.state = .halted) : s.evaluateCensus.halt = s.halt
    ∧ s.evaluateCensus.drive = s.drive := by
  unfold State.evaluateCensus
  split
  · split
    · exact ⟨rfl, rfl⟩
    · obtain ⟨p, e, -, -⟩ := completeCensus_eq s
      rw [e]
      have tt := d.settled.halted_topTier h
      generalize hw : (s.setOrders { s.orders with musterTimer := none, counting := false, blocker := none }).setPace p = w
      rw [settle_top (s := w) (d := .halted) (by rw [← hw]; exact tt) (by rw [← hw]; exact h.symm), ← hw];
          exact ⟨rfl, rfl⟩
  · exact ⟨rfl, rfl⟩

theorem cause_code (b : Byte) : haltCauseOfCode b = if b.toNat ≤ 10 then some ([none, some .misalign, some .stall,
    some .creep, some .sensor, some .peerLost,
            some .panelLost, some .musterTimeout, some .loopOpen, some .seized,
                some .restart].getD b.toNat none) else none := by
  unfold haltCauseOfCode
  have := b.isLt
  generalize b.toNat = n at *
  by_cases h : n ≤ 10
  · rw [if_pos h]; interval_cases n <;> rfl
  · rw [if_neg h]; split <;> first | omega | rfl

end Sys2Proof.Machine
end

