-- ==== Sys2Proof/Laws/Timers.lean ====
section
/-! SUPPORT. The timers of the drive states and the lines of the Sensor Port as a relation that every command keeps. -/

namespace Sys2Proof.Machine

set_option maxHeartbeats 1000000

/-- The port of a station in no reset stands as the rules give it. -/
def State.PortServed (s : State) : Prop := s.PortInv ∧ s.inReset = false

theorem State.PortInv.of_coherent {s : State} (h : s.sensor.Coherent)
    (r : s.sensor.exchange = .configRead → s.loader.state = .reading)
    (z : s.inReset = true → s.sensor.exchange = .stopped) : s.PortInv :=
  ⟨h.select0, h.select1, h.clock, h.sample, h.ready, r, z⟩

theorem State.PortInv.coherent {s : State} (h : s.PortInv) : s.sensor.Coherent :=
  ⟨h.select0, h.select1, h.clock, h.sample, h.ready⟩

theorem State.PortInv.inService {s : State} (h : s.PortInv) (p : s.loader.state = .passed) : s.sensor.InService :=
  ⟨h.coherent, fun k => by rw [h.reading k] at p; cases p⟩

theorem State.PortInv.of_inService {s : State} (h : s.sensor.InService) (z : s.inReset = false) : s.PortInv :=
  .of_coherent h.1 (fun k => absurd k h.2) (fun k => by rw [z] at k; cases k)

/-- A state that agrees on the timers, or has fewer of them running. -/
theorem State.TimerInv.of {s t : State} (h : s.TimerInv) (state : t.drive.state = s.drive.state)
    (dwell : t.drive.dwellTimer ≠ none → s.drive.dwellTimer ≠ none)
    (retry : t.stride.retryPause ≠ none → s.stride.retryPause ≠ none)
    (count : t.orders.counting = true → s.orders.counting = true)
    (muster : t.orders.musterTimer ≠ none → s.orders.musterTimer ≠ none)
    (coast : t.stride.coastWindow ≠ none → s.stride.coastWindow ≠ none)
    (on : t.stride.contactorOn = s.stride.contactorOn)
    (blink : t.drive.blinkTimer ≠ none → s.drive.blinkTimer ≠ none ∨ s.drive.state = .offline ∧ s.loader.offlineCause ≠ none)
    (loader : t.loader = s.loader) (running : t.pace.running = s.pace.running)
    (pace : s.isPacer = false ∨ s.loader.state ≠ .passed → t.pace = s.pace) : t.TimerInv where
  dwell k := by rw [state]; exact h.dwell (dwell k)
  retry k := by rw [state]; exact h.retry (retry k)
  census k := by rw [state]; exact h.census (k.imp count muster)
  coast k := by rw [state, on]; exact h.coast (coast k)
  blink k := by
    rw [state, loader]
    rcases blink k with k | k
    · exact h.blink k
    · exact k
  pacing := by rw [running, state, State.isPacer_congr loader]; exact h.pacing
  paceless k := by
    rw [State.isPacer_congr loader, loader] at k
    rw [pace k]; exact h.paceless k

/-- A state that agrees on everything the timers read. -/
theorem State.TimerInv.congr {s t : State} (h : s.TimerInv) (a : t.drive = s.drive) (b : t.stride = s.stride)
    (c : t.orders.counting = s.orders.counting) (m : t.orders.musterTimer = s.orders.musterTimer)
    (l : t.loader = s.loader) (p : t.pace = s.pace) : t.TimerInv :=
  h.of (by rw [a]) (by rw [a]; exact id) (by rw [b]; exact id) (by rw [c]; exact id) (by rw [m]; exact id)
    (by rw [b]; exact id) (by rw [b]) (by rw [a]; exact .inl) l (by rw [p]) (fun _ => p)

/-- A state that agrees on the port, the loader's state and the reset lines. -/
theorem State.PortInv.same {s t : State} (h : s.PortInv) (a : t.sensor = s.sensor) (l : t.loader = s.loader)
    (r : t.resets = s.resets) : t.PortInv :=
  .of_coherent (by rw [a]; exact h.coherent) (by rw [a, l]; exact h.reading)
    (by rw [a]; unfold State.inReset; rw [r]; exact h.resets)

theorem timed_congr {s t : State} (k : s.TimerInv ∧ s.loader.state = .passed)
    (a : t.drive = s.drive) (b : t.stride = s.stride) (c : t.orders.counting = s.orders.counting)
    (m : t.orders.musterTimer = s.orders.musterTimer) (l : t.loader = s.loader) (p : t.pace = s.pace) :
    t.TimerInv ∧ t.loader.state = .passed :=
  ⟨k.1.congr a b c m l p, by rw [l]; exact k.2⟩

theorem port_congr {s t : State} (k : s.PortServed ∧ s.loader.state = .passed) (a : t.sensor = s.sensor)
    (l : t.loader = s.loader) (r : t.resets = s.resets) : t.PortServed ∧ t.loader.state = .passed :=
  ⟨⟨k.1.1.same a l r, by unfold State.inReset; rw [r]; exact k.1.2⟩, by rw [l]; exact k.2⟩

/-- The lamp's timer after a transition: it runs only in OFFLINE with a cause (R22). -/
theorem State.transition_blinkTimer (s : State) (new : DriveState) (k : (s.transition new).drive.blinkTimer ≠ none) :
    new = .offline ∧ s.loader.offlineCause ≠ none := by
  simp only [State.transition, State.setDrive_drive, stageLamp_drive] at k
  have e : ∀ x : State, x.loader = s.loader → (x.drive.setLamp new x.loader.offlineCause).blinkTimer ≠ none →
      new = .offline ∧ s.loader.offlineCause ≠ none := by
    intro x l n
    rw [l] at n
    cases new <;> cases h : s.loader.offlineCause <;> rw [h] at n <;> first | exact absurd rfl n | exact ⟨rfl, nofun⟩
  exact e _ (by simp) k

/-- The coast window after a transition: it runs with the contactor off and outside OFFLINE (R61). -/
theorem State.transition_coastWindow {s : State} (new : DriveState)
    (h : s.stride.coastWindow ≠ none → s.stride.contactorOn = false)
    (k : (s.transition new).stride.coastWindow ≠ none) :
    (s.transition new).stride.contactorOn = false ∧ new ≠ .offline := by
  have a : ∀ (m : StrideMonitor) o, (m.atTransition o new).coastWindow ≠ none → m.coastWindow ≠ none ∧ new ≠ .offline := by
    intro m o
    simp only [StrideMonitor.atTransition]
    split_ifs <;> intro n <;> first | exact absurd rfl n | exact ⟨n, by assumption⟩
  rw [State.transition_stride] at k
  obtain ⟨k1, k2⟩ := a _ _ k
  refine ⟨?_, k2⟩
  rw [State.transition_contactorOn]
  split at k1
  · exact absurd rfl k1
  · rename_i n; rw [if_neg n]
    split at k1
    · rename_i r; rw [if_pos r]
    · rename_i r; rw [if_neg r]; exact h k1

/-- A transition leaves every timer as the rules give it; the retry pause may have been started for STALLED. -/
theorem State.transition_timed {s : State} (new : DriveState)
    (dwell : s.drive.dwellTimer ≠ none → s.drive.state = .dwell)
    (retry : s.stride.retryPause ≠ none → s.drive.state = .stalled ∨ new = .stalled)
    (census : s.orders.counting = true ∨ s.orders.musterTimer ≠ none → s.drive.state = .muster)
    (coast : s.stride.coastWindow ≠ none → s.stride.contactorOn = false)
    (running : s.isPacer = false → s.pace.running = false)
    (paceless : s.isPacer = false ∨ s.loader.state ≠ .passed → s.pace = PaceTimer.reset)
    (early : s.loader.state ≠ .passed → new = .offline) : (s.transition new).TimerInv where
  dwell k := by
    rw [State.transition_dwellTimer] at k
    rw [State.transition_drive_state]
    split at k
    · assumption
    · split at k
      · exact absurd rfl k
      · exact absurd (dwell k) (by assumption)
  retry k := by
    rw [State.transition_retryPause] at k
    rw [State.transition_drive_state]
    split at k
    · exact absurd rfl k
    · rename_i n; exact (retry k).resolve_left n
  census k := by
    rw [State.transition_orders] at k
    rw [State.transition_drive_state]
    split at k
    · assumption
    · split at k
      · rcases k with k | k
        · cases k
        · exact absurd rfl k
      · exact absurd (census k) (by assumption)
  coast k := by rw [State.transition_drive_state]; exact State.transition_coastWindow new coast k
  blink k := by rw [State.transition_drive_state, State.transition_loader]; exact s.transition_blinkTimer new k
  pacing := by
    rw [State.transition_pace, State.transition_drive_state, State.isPacer_congr (s.transition_loader new)]
    cases p : s.isPacer
    · simpa using running p
    · simp
  paceless k := by
    rw [State.isPacer_congr (s.transition_loader new), State.transition_loader] at k
    have e := paceless k
    rw [State.transition_pace]
    split
    · rename_i p
      have n := early (k.resolve_left (by simp [p]))
      rw [e, n]; rfl
    · exact e

theorem SensorPort.InService.atTransition {p : SensorPort} (h : p.InService) (new : DriveState) :
    (p.atTransition new).InService := by
  have a : ∀ q : SensorPort, q.InService → ∀ n : DriveState, (if n = .offline ∧ q.exchange ≠ .readyWait ∧ q.exchange ≠ .shifting then
      { q with exchange := .stopped, sampleTimer := none, pendingExpiry := false } else q).InService := by
    intro q k n
    split
    · rename_i c
      obtain ⟨⟨k1, k2, k3, k4, k5⟩, k6⟩ := k
      refine ⟨⟨by simp [k1, c.2.1, c.2.2], by simp [k2, k6], ?_, fun _ => rfl, fun z => absurd (k5 z) c.2.1⟩, by simp⟩
      simp [k3, c.2.2, k6]
    · exact k
  unfold SensorPort.atTransition; dsimp only
  split
  · exact a { p with faultMark := false } (h.congr rfl rfl rfl rfl id rfl) new
  · exact a _ h new

theorem timed_transition {s : State} (h : s.TimerInv ∧ s.loader.state = .passed) (new : DriveState)
    (m : StrideMonitor) (hm : m.coastWindow = s.stride.coastWindow ∧ m.contactorOn = s.stride.contactorOn
      ∧ (m.retryPause = s.stride.retryPause ∨ new = .stalled)) :
    ((s.setStride m).transition new).TimerInv ∧ ((s.setStride m).transition new).loader.state = .passed := by
  obtain ⟨h, l⟩ := h
  refine ⟨State.transition_timed new h.dwell (fun k => ?_) h.census (fun k => ?_) (fun k => ?_) h.paceless
    (fun k => absurd l k), by simpa using l⟩
  · rcases hm.2.2 with r | r
    · exact .inl (h.retry (by rw [← r]; exact k))
    · exact .inr r
  · show m.contactorOn = false
    rw [hm.2.1]; exact (h.coast (by rw [← hm.1]; exact k)).1
  · have := h.pacing
    rw [show s.isPacer = false from k] at this
    simpa using this

theorem timed_to {s : State} (h : s.TimerInv ∧ s.loader.state = .passed) (new : DriveState) :
    (s.transition new).TimerInv ∧ (s.transition new).loader.state = .passed :=
  timed_transition h new s.stride ⟨rfl, rfl, .inl rfl⟩

theorem port_to {s : State} (h : s.PortServed ∧ s.loader.state = .passed) (new : DriveState) :
    (s.transition new).PortServed ∧ (s.transition new).loader.state = .passed := by
  have j : (s.transition new).inReset = false := by unfold State.inReset; rw [State.transition_resets]; exact h.1.2
  refine ⟨⟨.of_inService ?_ j, j⟩, by simpa using h.2⟩
  rw [State.transition_sensor]; exact (h.1.1.inService h.2).atTransition new

/-- After the checks every primitive change keeps the timers to their drive states. -/
theorem timer_keep : Keep (KeptAfterChecks State.TimerInv) where
  refl _ h := h
  trans h k x := k (h x)
  halt _ _ h := timed_congr h rfl rfl rfl rfl rfl rfl
  claim _ _ _ _ h := timed_congr h rfl rfl rfl rfl rfl rfl
  emptied _ h := timed_congr h rfl rfl rfl rfl rfl rfl
  line _ _ _ h := timed_congr h rfl rfl rfl rfl rfl rfl
  pace s x r i h := by
    refine ⟨h.1.of rfl id id id id id rfl .inl rfl r (fun k => ?_), h.2⟩
    have k := k.resolve_right (fun n => n h.2)
    refine i k ?_
    rw [h.1.paceless (.inl k)]; rfl
  choices _ _ h := timed_congr h rfl rfl rfl rfl rfl rfl
  census s t c b hc ht h := ⟨h.1.of rfl id id hc ht id rfl .inl rfl rfl (fun _ => rfl), h.2⟩
  transition s d _ _ h := timed_to h d
  conflict s h := by
    unfold State.positionConflict; split
    · exact h
    · obtain ⟨h, l⟩ := h
      refine ⟨State.transition_timed .offline h.dwell (fun k => .inl (h.retry k)) h.census (fun k => (h.coast k).1)
        (fun k => ?_) h.paceless (fun _ => rfl), by simpa using l⟩
      have := h.pacing
      rw [show s.isPacer = false from k] at this
      simpa using this
  writeOrder s n a d p h := by
    unfold State.writeOrder; dsimp only
    have e := timed_congr (t := (s.setOrders (s.orders.adopt n a d p)).emptyHolds.emptyClaim) h rfl rfl rfl rfl rfl rfl
    generalize (s.setOrders (s.orders.adopt n a d p)).emptyHolds.emptyClaim = u at e
    split
    · rename_i q
      refine ⟨e.1.of rfl id id id id id rfl .inl rfl rfl (fun k => ?_), e.2⟩
      have k := k.resolve_right (fun n => n e.2)
      rw [q.1] at k; cases k
    · exact e
  refuse _ h := timed_congr h rfl rfl rfl rfl rfl rfl
  musterTimer s t ht h := ⟨h.1.of rfl id id id ht id rfl .inl rfl rfl (fun _ => rfl), h.2⟩
  holdCounts _ _ _ h := timed_congr h rfl rfl rfl rfl rfl rfl
  holdPut _ _ _ _ h := timed_congr h rfl rfl rfl rfl rfl rfl
  holdDrop _ _ h := timed_congr h rfl rfl rfl rfl rfl rfl
  sensor _ _ _ h := timed_congr h rfl rfl rfl rfl rfl rfl
  stride s x k h := ⟨h.1.of rfl id k.retry id id k.coast k.on .inl rfl rfl (fun _ => rfl), h.2⟩
  drive s d k _ h := ⟨h.1.of k.state k.dwell id id id id rfl k.blink rfl rfl (fun _ => rfl), h.2⟩
  localTime _ _ h := timed_congr h rfl rfl rfl rfl rfl rfl
  sample _ _ _ h := timed_congr h rfl rfl rfl rfl rfl rfl
  empty _ h := timed_congr h rfl rfl rfl rfl rfl rfl
  anyLine _ _ h := timed_congr h rfl rfl rfl rfl rfl rfl
  announced _ _ h := timed_congr h rfl rfl rfl rfl rfl rfl
  heard _ _ _ _ _ _ h := timed_congr h rfl rfl rfl rfl rfl rfl
  stranger _ _ _ _ _ h := timed_congr h rfl rfl rfl rfl rfl rfl
  totals _ _ _ h := timed_congr h rfl rfl rfl rfl rfl rfl
  aged _ _ _ _ _ _ h := timed_congr h rfl rfl rfl rfl rfl rfl
  rosterTick s h := by
    generalize s.roster.tick s.own = x
    exact timed_congr h rfl rfl rfl rfl rfl rfl
  ownFrame _ _ h := timed_congr h rfl rfl rfl rfl rfl rfl

/-- After the checks every primitive change keeps the lines and timers of the port to its exchange state. -/
theorem port_keep : Keep (KeptAfterChecks State.PortServed) where
  refl _ h := h
  trans h k x := k (h x)
  halt _ _ h := port_congr h rfl rfl rfl
  claim _ _ _ _ h := port_congr h rfl rfl rfl
  emptied _ h := port_congr h rfl rfl rfl
  line _ _ _ h := port_congr h rfl rfl rfl
  pace _ _ _ _ h := port_congr h rfl rfl rfl
  choices _ _ h := port_congr h rfl rfl rfl
  census _ _ _ _ _ _ h := port_congr h rfl rfl rfl
  transition s d _ _ h := port_to h d
  conflict s h := by
    unfold State.positionConflict; split
    · exact h
    · have j : ((s.setLoader { s.loader with offlineCause := some .positionConflict }).transition .offline).inReset = false := by
        unfold State.inReset; rw [State.transition_resets]; exact h.1.2
      refine ⟨⟨.of_inService ?_ j, j⟩, by simpa using h.2⟩
      rw [State.transition_sensor]; exact (h.1.1.inService h.2).atTransition _
  writeOrder s n a d p h := by
    unfold State.writeOrder; dsimp only; split
    · exact port_congr h rfl rfl rfl
    · exact port_congr h rfl rfl rfl
  refuse _ h := port_congr h rfl rfl rfl
  musterTimer _ _ _ h := port_congr h rfl rfl rfl
  holdCounts _ _ _ h := port_congr h rfl rfl rfl
  holdPut _ _ _ _ h := port_congr h rfl rfl rfl
  holdDrop _ _ h := port_congr h rfl rfl rfl
  sensor s x k h := ⟨⟨.of_inService (k (h.1.1.inService h.2)) h.1.2, h.1.2⟩, h.2⟩
  stride _ _ _ h := port_congr h rfl rfl rfl
  drive _ _ _ _ h := port_congr h rfl rfl rfl
  localTime _ _ h := port_congr h rfl rfl rfl
  sample _ _ _ h := port_congr h rfl rfl rfl
  empty _ h := port_congr h rfl rfl rfl
  anyLine _ _ h := port_congr h rfl rfl rfl
  announced _ _ h := port_congr h rfl rfl rfl
  heard _ _ _ _ _ _ h := port_congr h rfl rfl rfl
  stranger _ _ _ _ _ h := port_congr h rfl rfl rfl
  totals _ _ _ h := port_congr h rfl rfl rfl
  aged _ _ _ _ _ _ h := port_congr h rfl rfl rfl
  rosterTick s h := by
    generalize s.roster.tick s.own = x
    exact port_congr h rfl rfl rfl
  ownFrame _ _ h := port_congr h rfl rfl rfl

/-- A stall taken keeps the timers (R62 to R64): the pause starts as STALLED is entered. -/
theorem timed_stall {s : State} (d : s.DriveInv) (r : s.stride.stallTimer ≠ none) :
    KeptAfterChecks State.TimerInv s s.takeStall := by
  intro h
  have run := d.stall r
  have tn := d.settled.topTier_none (by rw [run]; decide) (by rw [run]; decide) (by rw [run]; decide)
  have st : ∀ m : StrideMonitor, s.StrideSteps m → (s.setStride m).TimerInv ∧ (s.setStride m).loader.state = .passed :=
    fun m k => timer_keep.stride s m k h
  unfold State.takeStall; dsimp only
  split
  · split
    · unfold State.retryStall
      refine timer_keep.toQuiet.reportStall _ ?_
      unfold State.enterStalled
      rw [if_pos (by exact tn)]
      refine timer_keep.toQuiet.followingEntry _ ?_
      exact timed_transition h .stalled (StrideMonitor.pause { s.stride with
        stallTimer := none, stallEvents := satInc s.stride.stallEvents
        consecutiveStalls := s.stride.consecutiveStalls + 1 } s.config) ⟨rfl, rfl, .inr rfl⟩
    · exact timer_keep.toQuiet.raiseHalt _ _ _ (st { s.stride with
        stallTimer := none, stallEvents := satInc s.stride.stallEvents
        consecutiveStalls := s.stride.consecutiveStalls + 1 } ⟨id, id, rfl⟩)
  · exact timer_keep.toQuiet.raiseHalt _ _ _ (st _ ⟨id, id, rfl⟩)
  · exact st _ ⟨id, id, rfl⟩

/-- Every command but the resets, their ends and the configuration read keeps the timers and the port of a station whose
checks have passed. -/
theorem timed_passed {s t : State} (d : s.DriveInv) (i : Instr) (e : exec i s = .next t)
    (hi : i ≠ .powerOnReset ∧ i ≠ .resetPinAssert ∧ (∀ p, i ≠ .powerOnResetEnd p) ∧ (∀ p, i ≠ .resetPinRelease p)
      ∧ (∀ a b, i ≠ .configReadComplete a b)) :
    KeptAfterChecks State.TimerInv s t ∧ KeptAfterChecks State.PortServed s t := by
  refine ⟨?_, port_keep.exec_keep s i e hi (fun _ _ _ _ h => port_congr h rfl rfl rfl)
    (fun _ => port_keep.stall_kept s (fun _ _ h => port_congr h rfl rfl rfl)) (fun _ _ h => port_to h _)⟩
  by_cases st : i = .stallTimerExpiry ∧ s.stride.stallTimer = none
  · obtain ⟨rfl, n⟩ := st
    simp only [exec, execStallTimerExpiry, n] at e
    cases e; exact id
  · refine timer_keep.exec_keep s i e hi (fun _ u x k h => ?_) (fun k => timed_stall d (fun n => st ⟨k, n⟩)) (fun _ u h => ?_)
    · exact ⟨h.1.of k.state k.dwell id id id id rfl k.blink rfl rfl (fun _ => rfl), h.2⟩
    · exact timed_to h .dwell

/-! ### Before the checks have passed -/

theorem asleep_of {s : State} (h : s.TimerInv) (p : s.PortInv) (off : s.drive.state = .offline)
    (np : s.loader.state ≠ .passed) : s.Asleep := by
  have no : ∀ x, x ≠ DriveState.offline → s.drive.state ≠ x := fun x n k => n (by rw [← k, off])
  refine ⟨off, ?_, ?_, ?_, ?_, ?_, h.paceless (.inr np), fun k => (h.blink k).2, p.coherent, p.reading, p.resets⟩
  · by_contra k; exact no _ (by decide) (h.dwell k)
  · by_contra k; exact no _ (by decide) (h.retry k)
  · cases k : s.orders.counting
    · rfl
    · exact absurd (h.census (.inl k)) (no _ (by decide))
  · by_contra k; exact no _ (by decide) (h.census (.inr k))
  · by_contra k; exact (h.coast k).2 off

theorem State.Asleep.timed {s : State} (h : s.Asleep) : s.TimerInv ∧ s.PortInv := by
  obtain ⟨a1, a2, a3, a4, a5, a6, a7, a8, a9, a10, a11⟩ := h
  refine ⟨⟨fun k => absurd a2 k, fun k => absurd a3 k, fun k => ?_, fun k => absurd a6 k, fun k => ⟨a1, a8 k⟩, ?_,
    fun _ => a7⟩, .of_coherent a9 a10 a11⟩
  · rcases k with k | k
    · rw [a4] at k; cases k
    · exact absurd a5 k
  · rw [a7, a1]; simp [PaceTimer.reset]

/-- Before the checks have passed the station is OFFLINE. -/
theorem State.DriveInv.early_offline {s : State} (d : s.DriveInv) (np : s.loader.state ≠ .passed) :
    s.drive.state = .offline := by
  have := d.settled
  unfold State.Settled at this
  rw [settled_offline np] at this; exact this.symm

/-- Every command but the resets, their ends and the configuration read keeps the timers of a station whose checks have
not passed. -/
theorem timed_early {s t : State} (d : s.DriveInv) (np : s.loader.state ≠ .passed) (h : s.TimerInv) (p : s.PortInv)
    (i : Instr) (e : exec i s = .next t)
    (hi : i ≠ .powerOnReset ∧ i ≠ .resetPinAssert ∧ (∀ p, i ≠ .powerOnResetEnd p) ∧ (∀ p, i ≠ .resetPinRelease p)
      ∧ (∀ a b, i ≠ .configReadComplete a b)) : t.TimerInv ∧ t.PortInv :=
  ((still_step d np i e hi).asleep (asleep_of h p (d.early_offline np) np)).timed

/-- A reset stops every timer and clears the port (R168). -/
theorem timed_reset (s : State) (k : Bool) (r : ResetLines) :
    ((s.beginReset k).setResets r).TimerInv ∧ ((s.beginReset k).setResets r).PortInv := by
  refine State.Asleep.timed ⟨rfl, rfl, ?_, rfl, rfl, ?_, rfl, fun h => absurd rfl h,
    ⟨rfl, rfl, ⟨nofun, fun h => by rcases h with h | h <;> cases h⟩, fun _ => rfl, fun h => absurd rfl h⟩, nofun, fun _ => rfl⟩
  all_goals (cases k <;> rfl)

/-- The end of a reset begins the configuration read (R169). -/
theorem timed_endReset {s : State} (d : s.DriveInv) (h : s.TimerInv) (q : s.PortInv) (p : Position) (hr : s.inReset = true)
    (r : ResetLines) (n : r.powerOn = false ∧ r.pin = false) :
    ((s.setResets r).endReset p).TimerInv ∧ ((s.setResets r).endReset p).PortInv := by
  have rd := d.startUp.resets hr
  have np : s.loader.state ≠ .passed := by rw [rd]; decide
  have st := q.resets hr
  obtain ⟨a1, a2, a3, a4, a5, a6, a7, a8, c, -⟩ := asleep_of h q (d.early_offline np) np
  refine State.Asleep.timed ⟨a1, a2, a3, a4, a5, a6, a7, a8, ⟨?_, rfl, ⟨fun _ => .inr rfl, fun _ => rfl⟩,
    fun _ => c.sample (.inl st), fun k => ?_⟩, fun _ => rd, fun k => ?_⟩
  · show s.sensor.select0 = _; rw [c.select0, st]; rfl
  · have := c.ready k; rw [st] at this; cases this
  · have : ((s.setResets r).endReset p).inReset = (r.powerOn || r.pin) := rfl
    rw [this, n.1, n.2] at k; cases k

/-- One of two resets ends while the other goes on. -/
theorem timed_dropReset {s : State} (h : s.TimerInv) (q : s.PortInv) (r : ResetLines) (hr : s.inReset = true) :
    (s.setResets r).TimerInv ∧ (s.setResets r).PortInv :=
  ⟨h.congr rfl rfl rfl rfl rfl rfl, .of_coherent q.coherent q.reading (fun _ => q.resets hr)⟩

/-- The configuration read completes (R171, R172). -/
theorem timed_config {s t : State} (d : s.DriveInv) (h : s.TimerInv) (q : s.PortInv) (image : List Byte) (ready : Bool)
    (e : execConfigReadComplete image ready s = .next t) : t.TimerInv ∧ t.PortInv := by
  unfold execConfigReadComplete at e
  split at e
  · rename_i k
    obtain ⟨nr, rd, x⟩ := k
    have np : s.loader.state ≠ .passed := by rw [rd]; decide
    obtain ⟨a1, a2, a3, a4, a5, a6, a7, a8, c, -⟩ := asleep_of h q (d.early_offline np) np
    have s0 : s.sensor.select0 = false := by rw [c.select0, x]; rfl
    have sm := c.sample (.inr x)
    have rt : s.sensor.readyTimer = none := by
      by_contra k; have := c.ready k; rw [x] at this; cases this
    dsimp only at e
    split at e <;> cases e
    · refine State.Asleep.timed ⟨a1, a2, a3, a4, a5, a6, a7, fun _ => nofun,
        ⟨s0, rfl, ⟨nofun, fun h => by rcases h with h | h <;> cases h⟩, fun _ => sm, fun k => absurd rt k⟩, nofun, fun k => ?_⟩
      exact absurd (nr.symm.trans k) (by decide)
    · generalize hu : (s.setLoader { s.loader with
        state := .checking, config := ConfigRecord.ofBytes image, crc := crcFieldOf image }).setSensor
          { s.sensor with select1 := false, clock := .low, dataOut := [] } = u
      have ti : ∀ p : SensorPort, p.Coherent → p.exchange ≠ .configRead → ((u.handOver.setSensor p).TimerInv
          ∧ (u.handOver.setSensor p).PortServed) ∧ (u.handOver.setSensor p).loader.state = .passed := by
        intro p cp n
        refine ⟨⟨⟨fun k => ?_, fun k => ?_, fun k => ?_, fun k => ?_, fun k => ?_, ?_, fun _ => ?_⟩,
          ⟨.of_coherent cp (fun k => absurd k n) (fun k => ?_), ?_⟩⟩, ?_⟩
        · rw [← hu] at k; exact absurd a2 k
        · rw [← hu] at k; exact absurd a3 k
        · rw [← hu] at k; rcases k with k | k
          · have : s.orders.counting = true := k
            rw [a4] at this; cases this
          · exact absurd a5 k
        · rw [← hu] at k; exact absurd a6 k
        · rw [← hu] at k ⊢
          have := a8 k
          exact absurd (d.startUp.reading rd) this
        · rw [← hu]
          have e : ∀ b : Bool, s.pace.running = decide (b = true ∧ (s.drive.state = .wait ∨ s.drive.state = .run)) := by
            intro b; rw [a7, a1]; simp [PaceTimer.reset]
          exact e _
        · rw [← hu]; exact a7
        · rw [← hu] at k; exact absurd (nr.symm.trans k) (by decide)
        · rw [← hu]; exact nr
        · rfl
      have us : u.sensor = { s.sensor with select1 := false, clock := .low, dataOut := [] } := by rw [← hu]; rfl
      have w : ((u.handOver.beginSensing ready).TimerInv ∧ (u.handOver.beginSensing ready).PortServed)
          ∧ (u.handOver.beginSensing ready).loader.state = .passed := by
        unfold State.beginSensing; split
        · refine ti _ ?_ (by simp)
          refine ⟨?_, ?_, ?_, fun _ => ?_, fun k => ?_⟩
          · show u.sensor.select0 = _; rw [us]; exact s0
          · show u.sensor.select1 = _; rw [us]; rfl
          · show u.sensor.clock = _ ↔ _
            rw [us]; exact ⟨nofun, fun h => by rcases h with h | h <;> cases h⟩
          · show u.sensor.sampleTimer = _; rw [us]; exact sm
          · have : u.sensor.readyTimer ≠ none := k
            rw [us] at this; exact absurd rt this
        · unfold State.beginExchange; dsimp only
          split
          · refine ti _ ⟨rfl, ?_, ⟨fun _ => .inl rfl, fun _ => rfl⟩, fun k => ?_, fun k => absurd rfl k⟩ (by simp)
            · show u.sensor.select1 = _; rw [us]; rfl
            · rcases k with k | k <;> cases k
          · refine ti _ ⟨rfl, ?_, ⟨nofun, fun h => by rcases h with h | h <;> cases h⟩, fun k => ?_, fun _ => rfl⟩ (by simp)
            · show u.sensor.select1 = _; rw [us]; rfl
            · rcases k with k | k <;> cases k
      exact ⟨(timer_keep.toQuiet.settle _ ⟨w.1.1, w.2⟩).1, (port_keep.toQuiet.settle _ ⟨w.1.2, w.2⟩).1.1⟩
  · cases e; exact ⟨h, q⟩

end Sys2Proof.Machine
end

