-- ==== Sys2Proof/Laws/Orders.lean ====
section
/-! SUPPORT. Adopting an order: its codes and number, the order in force after it, and the drive state it settles to. -/

open Sys2Proof Sys2Proof.Machine Host

namespace Sys2Proof.Machine

set_option maxHeartbeats 1000000

theorem direction_of_code {direction : Byte} {d} (h : directionOfCode direction = some d) : d.code = direction
    ∧ direction.toNat ≤ 1 := by
  have := direction.isLt
  unfold directionOfCode at h
  split at h
  · rename_i e; cases h; exact ⟨(BitVec.eq_of_toNat_eq (by rw [e]; rfl)), by omega⟩
  · rename_i e; cases h; exact ⟨(BitVec.eq_of_toNat_eq (by rw [e]; rfl)), by omega⟩
  · cases h

theorem direction_of_undefined {direction : Byte} : directionOfCode direction = none ↔ ¬direction.toNat ≤ 1 := by
  unfold directionOfCode; split
  · constructor <;> intro h
    · cases h
    · omega
  · constructor <;> intro h
    · cases h
    · omega
  · rename_i a b; exact ⟨fun _ h => (by have := direction.isLt; rcases Nat.le_one_iff_eq_zero_or_eq_one.mp h with h | h; exact a h; exact b h), fun _ => rfl⟩

theorem action_of_code {code : Byte} {d} (h : actionOfCode code = some d) : d.code = code ∧ code.toNat ≤ 2 := by
  have := code.isLt
  unfold actionOfCode at h
  split at h
  · rename_i e; cases h; exact ⟨(BitVec.eq_of_toNat_eq (by rw [e]; rfl)), by omega⟩
  · rename_i e; cases h; exact ⟨(BitVec.eq_of_toNat_eq (by rw [e]; rfl)), by omega⟩
  · rename_i e; cases h; exact ⟨(BitVec.eq_of_toNat_eq (by rw [e]; rfl)), by omega⟩
  · cases h

theorem action_of_undefined {code : Byte} : actionOfCode code = none ↔ ¬code.toNat ≤ 2 := by
  unfold actionOfCode; split
  · constructor <;> intro h
    · cases h
    · omega
  · constructor <;> intro h
    · cases h
    · omega
  · constructor <;> intro h
    · cases h
    · omega
  · rename_i a b c
    refine ⟨fun _ h => ?_, fun _ => rfl⟩
    have : code.toNat = 0 ∨ code.toNat = 1 ∨ code.toNat = 2 := by omega
    rcases this with h | h | h
    · exact a h
    · exact b h
    · exact c h

theorem writeOrder_form (s : State) n a d p : s.writeOrder n a d p = { s with
    orders := s.orders.adopt n a d p
    holds := { s.holds with records := Vector.replicate 32 none }
    claim := ClaimUnit.reset
    line := { s.line with claimSlot := none, statusSlot := s.line.statusSlot || !s.claim.reasons.isEmpty }
    pace := if s.isPacer = true ∧ a = .run then { s.pace with pendingPace := some p } else s.pace } := by
  unfold State.writeOrder; dsimp only
  by_cases h : s.isPacer = true ∧ a = .run
  · rw [if_pos h, if_pos (show (s.setOrders (s.orders.adopt n a d p)).emptyHolds.emptyClaim.isPacer = true
        ∧ a = .run from h)]; rfl
  · rw [if_neg h, if_neg (show ¬((s.setOrders (s.orders.adopt n a d p)).emptyHolds.emptyClaim.isPacer = true
        ∧ a = .run) from h)]; rfl

/-- the order after an adoption -/
theorem adopt_orders (s : State) b n a d p : State.SameOrders (s.writeOrder n a d p) (s.adopt b n a d p) := by
  have q := State.SameOrders.quiet
  have hdw : ∀ u : State, State.SameOrders u (u.transition .dwell) := by
    intro u; constructor <;> rw [State.transition_orders] <;> split_ifs <;> rfl
  unfold State.adopt; dsimp only
  split
  · exact q.trans (q.raiseHalt _ _ _) (q.afterAdoption _)
  · refine q.trans (b := (if (s.writeOrder n a d p).drive.state = .halted
        ∧ a = .clear then (s.writeOrder n a d p).decideClear else s.writeOrder n a d p)) ?_ (q.trans ?_ (q.afterAdoption _))
    · split
      · exact q.decideClear _
      · exact q.refl _
    · generalize (if (s.writeOrder n a d p).drive.state = .halted
          ∧ a = .clear then (s.writeOrder n a d p).decideClear else s.writeOrder n a d p) = u
      unfold State.settleAdopted
      split
      · exact q.settle u
      · split
        · exact hdw u
        · split
          · exact q.enterMuster u
          · exact q.settle u

theorem adopt_fields (s : State) b n a d p : (s.adopt b n a d p).orders.unset = false
    ∧ (s.adopt b n a d p).orders.number = n ∧ (s.adopt b n a d p).orders.action = a
    ∧ (s.adopt b n a d p).orders.direction = d ∧ (s.adopt b n a d p).orders.pace = p
    ∧ (s.adopt b n a d p).orders.refused = s.orders.refused := by
  have h := adopt_orders s b n a d p
  have e : (s.writeOrder n a d p).orders = s.orders.adopt n a d p := by rw [writeOrder_form]
  exact ⟨by rw [h.1, e]; rfl, by rw [h.2, e]; rfl, by rw [h.3, e]; rfl, by rw [h.4, e]; rfl, by rw [h.5, e]; rfl, by rw [h.6, e]; rfl⟩

theorem ahead_iff (u : State) (n : Byte) : u.numberAhead n = true ↔ (u.orders.unset = true
      ∨ 1 ≤ (n - u.orders.number).toNat ∧ (n - u.orders.number).toNat ≤ 127) := by
  unfold State.numberAhead ahead; simp

/-- an accepted order adopted -/
theorem take_adopts {s : State} {h : Header} {direction pace code : Byte} {d} {x} (a : s.Accepts h .order) (hd : directionOfCode direction = some d) (hx : actionOfCode code = some x) (hn : (s.afterHearing h id).numberAhead h.order = true) : s.receiveOrder h code direction pace = (s.afterHearing h id).adopt false h.order x d (min pace.toNat 100) := by
  unfold State.receiveOrder
  rw [receive_accepts a]
  unfold State.takeOrder; rw [hx, hd]; dsimp only; rw [if_pos hn]; rfl

/-- facts of the station that heard -/
theorem heard_station {s : State} (d : s.DriveInv) {h : Header} {k} (a : s.Accepts h k) fill : (s.afterHearing h fill).drive.state ≠ .offline ∧ (s.afterHearing h fill).loader = s.loader := by
  have act := (active_iff s).mp a.active
  have ui := afterHearing_inv d h fill
  have hd : (s.heardFrom h fill).drive = s.drive := by unfold State.heardFrom; rw [noteGood_eq]; rfl
  have hl : (s.heardFrom h fill).loader = s.loader := by unfold State.heardFrom; rw [noteGood_eq]; rfl
  have hi : (s.heardFrom h fill).DriveInv := driveInv_setRoster (driveInv_noteGood d _) _
  have e := (afterHearing_heard s h fill State.SameOuter.quiet).loader
  exact ⟨hi.ne_offline (by rw [hd]; exact act.2) ui e, e.trans hl⟩

theorem calm_after (t : State) (h : t.drive.state = .idle ∨ t.drive.state = .halted ∨ t.drive.state = .dwell) : t.afterAdoption = t := by
  unfold State.afterAdoption State.isFollowing
  rcases h with h | h | h <;> rw [h] <;> rfl

theorem passed_top {u : State} (l : u.loader.state = .passed
    ∧ u.loader.offlineCause = none) : u.topTier = if u.halt.latched then some .halted else if u.orders.unset = true ∨ u.orders.action ≠ .run then some .idle else none := by
  unfold State.topTier State.checksPassed; rw [if_neg (by simp [l.1, l.2])]

theorem halted_latched {u : State} (d : u.DriveInv) (o : u.drive.state ≠ .offline) : u.halt.latched = true
    ↔ u.drive.state = .halted := by
  have ck := d.settled.checked o
  constructor
  · intro h
    have := d.settled; unfold State.Settled State.settledState at this
    rw [passed_top ck, if_pos h] at this; exact this.symm
  · intro h
    have := d.settled.halted_topTier h
    rw [passed_top ck] at this
    by_contra n; rw [if_neg n] at this; split at this <;> cases this

theorem settle_idle {u : State} (h : u.settledState = .idle) (k : u.drive.state ≠ .idle) : u.settle = u.transition .idle := by
  unfold State.settle; rw [h, if_neg (fun e => k e.symm)]
  unfold State.followingEntry State.isFollowing; rw [State.transition_drive_state]; rfl

theorem dwell_stage {w : State} (ho : w.drive.runOutput = decide (w.drive.state = .run)) : (w.transition .dwell).drive.state = .dwell ∧ (w.transition .dwell).drive.direction = w.orders.direction ∧ (w.transition .dwell).drive.runOutput = false ∧ (w.transition .dwell).drive.dwellTimer = some (10 * w.config.reversalDwell.toNat)
   ∧ (w.transition .dwell).governor = { w.governor with window := [], lead := none, runRequest := false, lagMark := false }
   ∧ (w.drive.state = .run → (w.transition .dwell).drive.rest = .resting 10)
   ∧ (w.drive.state = .muster → (w.transition .dwell).orders.musterTimer = none
       ∧ (w.transition .dwell).orders.counting = false)
   ∧ (w.drive.state = .stalled → (w.transition .dwell).stride.retryPause = none)
   ∧ (w.transition .dwell).stride.stallMark = false ∧ (w.transition .dwell).stride.consecutiveStalls = 0
       ∧ (w.transition .dwell).sensor.faultMark = false
   ∧ (w.transition .dwell).line.statusSlot = true := by
  refine ⟨by rw [State.transition_drive_state], by rw [State.transition_direction, if_pos rfl], ?_, by rw [State.transition_dwellTimer, if_pos rfl], by rw [State.transition_governor, if_pos rfl], fun k => by rw [State.transition_rest, if_pos k], fun k => ?_, fun k => by rw [State.transition_retryPause, if_pos k], ?_, ?_, ?_, ?_⟩
  · rw [State.transition_runOutput, if_neg (by decide)]; split
    · rfl
    · rename_i z; rw [ho]; simp [z]
  · rw [State.transition_orders, if_neg (by decide), if_pos k]; exact ⟨rfl, rfl⟩
  · rw [State.transition_stride]; simp [StrideMonitor.atTransition]
  · rw [State.transition_stride]; simp [StrideMonitor.atTransition]
  · rw [State.transition_sensor]; simp [SensorPort.atTransition]
  · rw [State.transition_line]; simp

/-- a report of a reason changes no more than the claim and the line -/
structure ClaimOnly (s t : State) : Prop where
  drive : t.drive = s.drive
  governor : t.governor = s.governor
  orders : t.orders = s.orders
  holds : t.holds = s.holds
  halt : t.halt = s.halt
  pace : t.pace = s.pace
  sensor : t.sensor = s.sensor
  stride : t.stride = s.stride
  loader : t.loader = s.loader
  announced : t.claim.announced = s.claim.announced

theorem ClaimOnly.report (s : State) r p : ClaimOnly s (s.reportReason r p) := by
  unfold State.reportReason; dsimp only; split <;> exact ⟨rfl, rfl, rfl, rfl, rfl, rfl, rfl, rfl, rfl, rfl⟩

theorem ClaimOnly.trans {a b c : State} (h : ClaimOnly a b) (k : ClaimOnly b c) : ClaimOnly a c :=
  ⟨k.1.trans h.1, k.2.trans h.2, k.3.trans h.3, k.4.trans h.4, k.5.trans h.5, k.6.trans h.6, k.7.trans h.7,
      k.8.trans h.8, k.9.trans h.9, k.10.trans h.10⟩

theorem reports_only (s : State) : ClaimOnly s s.reportReasons :=
  (ClaimOnly.report s _ _).trans ((ClaimOnly.report _ _ _).trans (ClaimOnly.report _ _ _))

theorem report_reasons (s : State) r p : (s.reportReason r p).claim.reasons = s.claim.reasons.put r p := by
  unfold State.reportReason; dsimp only; split
  · rename_i h; exact h.symm
  · rfl

/-- the claim afresh -/
theorem reports_claim (s : State) (p : s.isPacer = false) (f : s.isFollowing = true) : s.reportReasons.claim.reasons = { lag := s.governor.lagMark, stall := s.stride.stallMark, sensor := s.sensor.faultMark } := by
  have e : s.reportReasons = ((s.reportReason .lag (s.governor.lagMark && s.isFollowing && !s.isPacer)).reportStall).reportSensor := rfl
  rw [e]
  have o1 := ClaimOnly.report s .lag (s.governor.lagMark && s.isFollowing && !s.isPacer)
  have c1 := report_reasons s .lag (s.governor.lagMark && s.isFollowing && !s.isPacer)
  generalize s.reportReason .lag (s.governor.lagMark && s.isFollowing && !s.isPacer) = a at *
  have o2 := ClaimOnly.report a .stall (a.stride.stallMark && a.isFollowing && !a.isPacer)
  have c2 := report_reasons a .stall (a.stride.stallMark && a.isFollowing && !a.isPacer)
  show (State.reportSensor (a.reportReason .stall (a.stride.stallMark && a.isFollowing && !a.isPacer))).claim.reasons = _
  have ap : a.isPacer = false := by rw [State.isPacer_congr o1.loader, p]
  have af : a.isFollowing = true := by unfold State.isFollowing at *; rw [o1.drive]; exact f
  generalize hb : a.reportReason .stall (a.stride.stallMark && a.isFollowing && !a.isPacer) = b at *
  have c3 := report_reasons b .sensor (b.sensor.faultMark && !b.isPacer)
  have bp : b.isPacer = false := by rw [State.isPacer_congr o2.loader, ap]
  show (b.reportReason .sensor (b.sensor.faultMark && !b.isPacer)).claim.reasons = _
  rw [c3, c2, c1, f, p, ap, af, bp, o2.sensor, o1.sensor, o1.stride]
  simp [ReasonSet.put]

/-- the parts an evaluation reads -/
theorem evaluate_twice {t v : State} (h : t.DriveInv) (m : t.drive.state = .muster) (hb : t.censusBlocker = v.censusBlocker) (hs : t.stateAfterMuster = v.stateAfterMuster) :
   (∀ b, v.censusBlocker = some b → t.evaluateCensus = t.setOrders { t.orders with blocker := some b })
   ∧ (v.censusBlocker = none → t.evaluateCensus.drive.state = v.stateAfterMuster) := by
  have hc := counting_of_muster h m
  have ht := h.settled.topTier_none (by rw [m]; decide) (by rw [m]; decide) (by rw [m]; decide)
  constructor
  · intro b k; unfold State.evaluateCensus; rw [if_pos hc, hb, k]
  · intro k
    have e : t.evaluateCensus = t.completeCensus := by unfold State.evaluateCensus; rw [if_pos hc, hb, k]
    rw [e, (completeCensus_state ht m).1, hs]

theorem following_not_muster {d : DriveState} (h : d.isFollowing = true) : d ≠ .muster := by rintro rfl; cases h

theorem afterAdoption_drive (t : State) (h : t.drive.state ≠ .muster) : ClaimOnly t t.afterAdoption
    ∧ t.afterAdoption.drive = t.drive := by
  unfold State.afterAdoption; rw [if_neg h]; split
  · exact ⟨reports_only t, (reports_only t).drive⟩
  · exact ⟨⟨rfl, rfl, rfl, rfl, rfl, rfl, rfl, rfl, rfl, rfl⟩, rfl⟩

/-- the announced mark stays clear -/
theorem announced_loud : Loud (fun s t : State => s.claim.announced = false → t.claim.announced = false) where
  refl := fun _ h => h
  trans := fun h k x => k (h x)
  halt := fun _ _ h => h
  claim := fun _ _ _ _ h => h
  emptied := fun _ _ => rfl
  line := fun _ _ _ h => h
  pace := fun _ _ _ _ h => h
  choices := fun _ _ h => h
  census := fun _ _ _ _ _ _ h => h
  transition := fun s d _ _ h => by rw [State.transition_claim]; split
                                    · rfl
                                    · exact h
  holds := fun _ _ h => h
  orders := fun _ _ h => h
  dwell := fun s h => by rw [State.transition_claim]; split
                         · rfl
                         · exact h

/-- an empty hold set stays empty -/
theorem empty_quiet : Quiet (fun s t : State => (∀ p, s.holds.recordOf p = none) → ∀ p,
    t.holds.recordOf p = none) where
  refl := fun _ h => h
  trans := fun h k x => k (h x)
  halt := fun _ _ h => h
  claim := fun _ _ _ _ h => h
  emptied := fun _ h => h
  line := fun _ _ _ h => h
  pace := fun _ _ _ _ h => h
  choices := fun _ _ h => h
  census := fun _ _ _ _ _ _ h => h
  transition := fun s d _ _ h => by rw [State.transition_holds]; split
                                    · intro p; simp
                                    · exact h

theorem raise_pending (s : State) c o : (s.raiseHalt c o).pace.pendingPace = s.pace.pendingPace := by
  rcases State.raiseHalt_cases s c o with ⟨_, e⟩ | ⟨_, e⟩ | ⟨_, _, e⟩ <;> rw [e]
  · rfl
  · rw [enterHalted_pace]; split <;> rfl

theorem transition_pending (u : State) d : (u.transition d).pace.pendingPace = u.pace.pendingPace := by
  rw [State.transition_pace]; split <;> rfl

theorem settle_pending (s : State) : s.settle.pace.pendingPace = s.pace.pendingPace := by
  unfold State.settle; split
  · rfl
  · unfold State.followingEntry; split
    · have e : (s.transition s.settledState).reportLag.pace.pendingPace = s.pace.pendingPace := by
        unfold State.reportLag; rw [(ClaimOnly.report _ _ _).pace, transition_pending]
      dsimp only; split
      · rw [raise_pending, e]
      · exact e
    · exact transition_pending s _

/-- a settle that ends in a following state is a transition and the LAG report -/
theorem settle_into {s : State} (n : s.settledState ≠ s.drive.state) (ho : s.drive.runOutput = decide (s.drive.state = .run)) (f : s.settle.isFollowing = true) :
    s.settle = (s.transition s.settledState).reportLag := by
  have e : s.settledState.isFollowing = true := by
    by_contra z
    have : s.settle = s.transition s.settledState := by
      unfold State.settle; rw [if_neg n]; unfold State.followingEntry State.isFollowing
      rw [State.transition_drive_state, if_neg z]
    rw [this] at f; unfold State.isFollowing at f; rw [State.transition_drive_state] at f; exact z f
  cases k : s.leadBeyondHalt
  · rw [settle_calm k n, if_pos e]
  · have := settle_halts ho k n e
    unfold State.isFollowing at f
    rw [this.state] at f; cases f

/-- the run decision after an adopted RUN in the direction of the output -/
theorem adopted_settledState {u : State} (ui : u.DriveInv) (un : u.drive.state.isUnderway = true) {w : State} {n d p} (hw : w = u.writeOrder n .run d p) :
    w.settledState = if u.drive.state = .wait ∨ u.drive.state = .run ∨ u.drive.state = .held then (if u.runRequest = true ∧ u.drive.rest = .rested then .run else .wait) else u.drive.state := by
  have tn : u.topTier = none :=
      ui.settled.topTier_none (by rintro k; rw [k] at un; cases un) (by rintro k; rw [k] at un; cases un) (by rintro k; rw [k] at un; cases un)
  have uo : u.orders.unset = false ∧ u.orders.action = .run := by
    unfold State.topTier at tn; split_ifs at tn with a b c
    revert c; cases u.orders.unset <;> simp
  have wf := writeOrder_form u n .run d p
  rw [← hw] at wf
  have si : State.SameInputs (u.setHolds { u.holds with records := Vector.replicate 32 none }) w :=
    State.SameInputs.of_drive (by rw [wf]; rfl) (by rw [wf]; rfl) (by rw [wf]; exact uo.1.symm) (by rw [wf]; exact uo.2.symm) (by rw [wf]; rfl) (by rw [wf]; rfl) (by rw [wf]; rfl) (by rw [wf]; rfl) (by rw [wf]; dsimp only; split <;> rfl) (by rw [wf]; rfl)
  rw [si.settledState, setHolds_settled ui]
  have : HoldTable.isEmpty { u.holds with records := Vector.replicate 32 none } = true :=
      by rw [HoldTable.isEmpty_iff]; simp
  rw [this]; rfl

theorem blocker_set (t : State) (b) : (t.setOrders { t.orders with blocker := b }).censusBlocker = t.censusBlocker :=
  censusBlocker_congr rfl rfl rfl rfl rfl rfl

theorem evaluate_some {x : State} {b} (c : x.orders.counting = true) (h : x.censusBlocker = some b) : x.evaluateCensus = x.setOrders { x.orders with blocker := some b } := by
  unfold State.evaluateCensus; rw [if_pos c, h]

theorem evaluate_none {x : State} (c : x.orders.counting = true) (h : x.censusBlocker = none) : x.evaluateCensus = x.completeCensus := by
  unfold State.evaluateCensus; rw [if_pos c, h]

theorem after_muster {x : State} (h : x.drive.state = .muster) : x.afterAdoption = x.requestStatus.evaluateCensus := by
  unfold State.afterAdoption; rw [if_pos h]

theorem Quiet.refine {R : State → State → Prop} (q : Quiet R) (s : State) h b : R s (s.refineOrigin h b) := by
  unfold State.refineOrigin; dsimp only
  split
  · split
    · exact q.halt s _
    · exact q.refl s
  · exact q.refl s

/-- an evaluation in HALTED changes no more than the order unit and the pace timer -/
theorem evaluate_halted {s : State} (d : s.DriveInv) (h : s.drive.state = .halted) : ∃ o p,
    s.evaluateCensus = (s.setOrders o).setPace p := by
  unfold State.evaluateCensus
  split
  · split
    · rename_i x _; exact ⟨{ s.orders with blocker := some x }, s.pace, rfl⟩
    · obtain ⟨p, e, -, -⟩ := completeCensus_eq s
      rw [e]
      have tt := d.settled.halted_topTier h
      generalize hw : (s.setOrders { s.orders with musterTimer := none, counting := false, blocker := none }).setPace p = w
      rw [settle_top (s := w) (d := .halted) (by rw [← hw]; exact tt) (by rw [← hw]; exact h.symm), ← hw]; exact ⟨_,
          _, rfl⟩
  · exact ⟨s.orders, s.pace, rfl⟩

theorem refine_keeps (s : State) h b : (s.refineOrigin h b).drive = s.drive
    ∧ (s.refineOrigin h b).halt.record.cause = s.halt.record.cause
    ∧ (s.refineOrigin h b).halt.record.later = s.halt.record.later := by
  unfold State.refineOrigin; dsimp only
  split
  · split <;> exact ⟨rfl, rfl, rfl⟩
  · exact ⟨rfl, rfl, rfl⟩

theorem action_run {x : Byte} : actionOfCode x = some .run ↔ x = 1 := by
  constructor
  · intro h; exact (action_of_code h).1.symm
  · rintro rfl; rfl

/-! ### What a frame and an evaluation leave outside MUSTER, and in it -/

/-- Hearing a frame keeps the timers to their drive states. -/
theorem heard_timed {s : State} (k : s.TimerInv) (p : s.loader.state = .passed) (h : Header) (fill) :
    (s.afterHearing h fill).TimerInv := by
  have e := afterHearing_heard s h fill timer_keep.toQuiet
  refine (e ⟨k.congr ?_ ?_ ?_ ?_ ?_ ?_, ?_⟩).1
  all_goals (unfold State.heardFrom; rw [noteGood_eq]; first | rfl | exact p)

/-- Outside MUSTER no census counts, and an evaluation changes nothing. -/
theorem calm_census {s : State} (k : s.TimerInv) (n : s.drive.state ≠ .muster) : s.evaluateCensus = s := by
  unfold State.evaluateCensus; rw [if_neg]; intro c; exact n (k.census (.inl c))

/-- With the latch clear a STATUS refines no origin. -/
theorem refine_calm {s : State} (n : s.halt.latched ≠ true) (h b) : s.refineOrigin h b = s := by
  unfold State.refineOrigin; dsimp only; rw [if_neg]; intro k; exact n k.1

theorem muster_not_latched {s : State} (d : s.DriveInv) (m : s.drive.state = .muster) : s.halt.latched ≠ true := by
  intro l
  have ht := d.settled.topTier_none (by rw [m]; decide) (by rw [m]; decide) (by rw [m]; decide)
  unfold State.topTier State.checksPassed at ht
  split at ht
  · cases ht
  · simp at ht

/-- One evaluation in MUSTER with another hold set: blocked, or complete. -/
theorem census_after {u : State} (d : u.DriveInv) (m : u.drive.state = .muster) (x : HoldTable) :
    (∀ y, u.censusBlocker = some y → (u.setHolds x).evaluateCensus.drive.state = .muster
        ∧ (u.setHolds x).evaluateCensus.orders.counting = true
        ∧ (u.setHolds x).evaluateCensus.orders.blocker = some y)
    ∧ (u.censusBlocker = none → (u.setHolds x).evaluateCensus.drive.state = (u.setHolds x).stateAfterMuster
        ∧ (u.setHolds x).evaluateCensus.orders.counting = false
        ∧ (u.setHolds x).evaluateCensus.orders.musterTimer = none) := by
  have hc := counting_of_muster d m
  have ht := d.settled.topTier_none (by rw [m]; decide) (by rw [m]; decide) (by rw [m]; decide)
  constructor
  · intro y k
    rw [evaluate_some (x := u.setHolds x) hc k]
    exact ⟨m, hc, rfl⟩
  · intro k
    rw [evaluate_none (x := u.setHolds x) hc k]
    obtain ⟨a, b, c, -⟩ := completeCensus_state (s := u.setHolds x) ht m
    exact ⟨a, c, b⟩

/-- A census that completes with a lead beyond X leaves the hold set empty (R36, R131). -/
theorem census_beyond {u : State} (d : u.DriveInv) (m : u.drive.state = .muster) (k : u.censusBlocker = none)
    (lb : u.leadBeyondHalt = true) (p : Position) : u.evaluateCensus.holds.recordOf p = none := by
  rw [evaluate_none (counting_of_muster d m) k]
  obtain ⟨q, e, -⟩ := completeCensus_eq u
  rw [e]
  generalize hw : (u.setOrders { u.orders with musterTimer := none, counting := false, blocker := none }).setPace q = w
  have wd : w.drive = u.drive := by rw [← hw]; rfl
  have wo : w.orders.counting = false := by rw [← hw]; rfl
  have ht : w.topTier = none := by
    rw [← hw]; exact d.settled.topTier_none (by rw [m]; decide) (by rw [m]; decide) (by rw [m]; decide)
  have ws := settled_of_tiers ht (by rw [wd, m]; simp) (by rw [wo]; simp) (by rw [wd, m]; simp)
  have f : w.settledState.isFollowing = true := by
    rw [ws]; rcases w.movingTier_cases with t | t | t <;> rw [t] <;> rfl
  exact (settle_halts (by rw [wd]; exact d.contactor.1) (by rw [← lb, ← hw]; exact leadBeyond_congr rfl)
    (fun z => by rw [z, wd, m] at f; cases f) f).holds p

/-- A settling never enters MUSTER. -/
theorem settle_not_muster {s : State} (h : s.drive.state ≠ .muster) : s.settle.drive.state ≠ .muster := by
  have n : s.settledState ≠ .muster := by
    unfold State.settledState State.topTier
    split
    · rename_i d e; split_ifs at e <;> cases e <;> decide
    · split_ifs
      · decide
      · rename_i z; exact absurd z.1 h
      · decide
      · rcases s.movingTier_cases with t | t | t <;> rw [t] <;> decide
  by_cases e : s.settledState = s.drive.state
  · rw [settle_same e]; exact h
  · cases hl : s.leadBeyondHalt
    · rw [settle_state hl]; exact n
    · by_cases f : s.settledState.isFollowing = true
      · rw [settle_beyond hl e f, State.enterHalted_state]; decide
      · unfold State.settle State.followingEntry State.isFollowing
        rw [if_neg e, State.transition_drive_state, if_neg f, State.transition_drive_state]; exact n

end Sys2Proof.Machine
end

