-- ==== Sys2Proof/Laws/PerInstr.lean ====
section
/-! SUPPORT. The per-instruction family `WellFormedShape`: what a well-formed command's operands are known to be. -/
namespace Sys2Proof.Laws.WellFormedShape

open Sys2Proof.Machine

/-- A well-formed command that brings an ASK has an item and argument in range exactly when its row is named for the
item (Table 11-5, R167); one that ends the configuration read brings 32 bytes (R169); one of an undefined action has a
code that no action has (R120). -/
def Statement (i : Instr) : Prop :=
  i.wellFormed = true →
    (∀ h target item argument, askOf i = some (h, target, item, argument) →
      (askInRange item argument = false ↔ i = .askUnknownItem h target item argument))
    ∧ (∀ image ready, i = .configReadComplete image ready → image.length = 32)
    ∧ (∀ h action direction pace, i = .orderUndefinedAction h action direction pace → actionOfCode action = none)

theorem powerOnReset : Statement .powerOnReset :=
  fun _ => ⟨fun _ _ _ _ e => (nomatch e), fun _ _ e => (nomatch e), fun _ _ _ _ e => (nomatch e)⟩

theorem powerOnResetEnd (straps : Position) : Statement (.powerOnResetEnd straps) :=
  fun _ => ⟨fun _ _ _ _ e => (nomatch e), fun _ _ e => (nomatch e), fun _ _ _ _ e => (nomatch e)⟩

theorem resetPinAssert : Statement .resetPinAssert :=
  fun _ => ⟨fun _ _ _ _ e => (nomatch e), fun _ _ e => (nomatch e), fun _ _ _ _ e => (nomatch e)⟩

theorem resetPinRelease (straps : Position) : Statement (.resetPinRelease straps) :=
  fun _ => ⟨fun _ _ _ _ e => (nomatch e), fun _ _ e => (nomatch e), fun _ _ _ _ e => (nomatch e)⟩

theorem configReadComplete (image : List Byte) (ready : Bool) : Statement (.configReadComplete image ready) := by
  intro w
  refine ⟨fun _ _ _ _ e => (nomatch e), fun _ _ e => ?_, fun _ _ _ _ e => (nomatch e)⟩
  injection e with e₁ e₂
  subst e₁ e₂
  simpa [Instr.wellFormed] using w

theorem contactorRestEnd : Statement .contactorRestEnd :=
  fun _ => ⟨fun _ _ _ _ e => (nomatch e), fun _ _ e => (nomatch e), fun _ _ _ _ e => (nomatch e)⟩

theorem dwellTimerExpiry : Statement .dwellTimerExpiry :=
  fun _ => ⟨fun _ _ _ _ e => (nomatch e), fun _ _ e => (nomatch e), fun _ _ _ _ e => (nomatch e)⟩

theorem lampBlinkStep : Statement .lampBlinkStep :=
  fun _ => ⟨fun _ _ _ _ e => (nomatch e), fun _ _ e => (nomatch e), fun _ _ _ _ e => (nomatch e)⟩

theorem localTimeTick : Statement .localTimeTick :=
  fun _ => ⟨fun _ _ _ _ e => (nomatch e), fun _ _ e => (nomatch e), fun _ _ _ _ e => (nomatch e)⟩

theorem sampleTimerExpiry (ready : Bool) : Statement (.sampleTimerExpiry ready) :=
  fun _ => ⟨fun _ _ _ _ e => (nomatch e), fun _ _ e => (nomatch e), fun _ _ _ _ e => (nomatch e)⟩

theorem readyAssert : Statement .readyAssert :=
  fun _ => ⟨fun _ _ _ _ e => (nomatch e), fun _ _ e => (nomatch e), fun _ _ _ _ e => (nomatch e)⟩

theorem readyTimeout (nextReady : Bool) : Statement (.readyTimeout nextReady) :=
  fun _ => ⟨fun _ _ _ _ e => (nomatch e), fun _ _ e => (nomatch e), fun _ _ _ _ e => (nomatch e)⟩

theorem short (nextReady : Bool) : Statement (.short nextReady) :=
  fun _ => ⟨fun _ _ _ _ e => (nomatch e), fun _ _ e => (nomatch e), fun _ _ _ _ e => (nomatch e)⟩

theorem shiftComplete (word : BitVec 24) (nextReady : Bool) : Statement (.shiftComplete word nextReady) :=
  fun _ => ⟨fun _ _ _ _ e => (nomatch e), fun _ _ e => (nomatch e), fun _ _ _ _ e => (nomatch e)⟩

theorem wheelInputChange (high : Bool) : Statement (.wheelInputChange high) :=
  fun _ => ⟨fun _ _ _ _ e => (nomatch e), fun _ _ e => (nomatch e), fun _ _ _ _ e => (nomatch e)⟩

theorem wheelPulse : Statement .wheelPulse :=
  fun _ => ⟨fun _ _ _ _ e => (nomatch e), fun _ _ e => (nomatch e), fun _ _ _ _ e => (nomatch e)⟩

theorem pulseFilterRelease : Statement .pulseFilterRelease :=
  fun _ => ⟨fun _ _ _ _ e => (nomatch e), fun _ _ e => (nomatch e), fun _ _ _ _ e => (nomatch e)⟩

theorem stallTimerExpiry : Statement .stallTimerExpiry :=
  fun _ => ⟨fun _ _ _ _ e => (nomatch e), fun _ _ e => (nomatch e), fun _ _ _ _ e => (nomatch e)⟩

theorem retryPauseEnd : Statement .retryPauseEnd :=
  fun _ => ⟨fun _ _ _ _ e => (nomatch e), fun _ _ e => (nomatch e), fun _ _ _ _ e => (nomatch e)⟩

theorem coastWindowExpiry : Statement .coastWindowExpiry :=
  fun _ => ⟨fun _ _ _ _ e => (nomatch e), fun _ _ e => (nomatch e), fun _ _ _ _ e => (nomatch e)⟩

theorem endOfOnPart : Statement .endOfOnPart :=
  fun _ => ⟨fun _ _ _ _ e => (nomatch e), fun _ _ e => (nomatch e), fun _ _ _ _ e => (nomatch e)⟩

theorem endOfPeriod : Statement .endOfPeriod :=
  fun _ => ⟨fun _ _ _ _ e => (nomatch e), fun _ _ e => (nomatch e), fun _ _ _ _ e => (nomatch e)⟩

theorem staleAgePassed (position : Position) : Statement (.staleAgePassed position) :=
  fun _ => ⟨fun _ _ _ _ e => (nomatch e), fun _ _ e => (nomatch e), fun _ _ _ _ e => (nomatch e)⟩

theorem lostLimitPassed (position : Position) : Statement (.lostLimitPassed position) :=
  fun _ => ⟨fun _ _ _ _ e => (nomatch e), fun _ _ e => (nomatch e), fun _ _ _ _ e => (nomatch e)⟩

theorem musterTimerExpiry : Statement .musterTimerExpiry :=
  fun _ => ⟨fun _ _ _ _ e => (nomatch e), fun _ _ e => (nomatch e), fun _ _ _ _ e => (nomatch e)⟩

theorem loopSenseChange (present : Bool) : Statement (.loopSenseChange present) :=
  fun _ => ⟨fun _ _ _ _ e => (nomatch e), fun _ _ e => (nomatch e), fun _ _ _ _ e => (nomatch e)⟩

theorem loopSenseSettled : Statement .loopSenseSettled :=
  fun _ => ⟨fun _ _ _ _ e => (nomatch e), fun _ _ e => (nomatch e), fun _ _ _ _ e => (nomatch e)⟩

theorem characterReceived (line : Line) (samples : CharacterSamples) : Statement (.characterReceived line samples) :=
  fun _ => ⟨fun _ _ _ _ e => (nomatch e), fun _ _ e => (nomatch e), fun _ _ _ _ e => (nomatch e)⟩

theorem receiverIdle (line : Line) : Statement (.receiverIdle line) :=
  fun _ => ⟨fun _ _ _ _ e => (nomatch e), fun _ _ e => (nomatch e), fun _ _ _ _ e => (nomatch e)⟩

theorem frameCheckFailed (line : Line) : Statement (.frameCheckFailed line) :=
  fun _ => ⟨fun _ _ _ _ e => (nomatch e), fun _ _ e => (nomatch e), fun _ _ _ _ e => (nomatch e)⟩

theorem statusFrame (header : Header) (body : StatusBody) : Statement (.statusFrame header body) :=
  fun _ => ⟨fun _ _ _ _ e => (nomatch e), fun _ _ e => (nomatch e), fun _ _ _ _ e => (nomatch e)⟩

theorem runOrder (header : Header) (direction pace : Byte) : Statement (.runOrder header direction pace) :=
  fun _ => ⟨fun _ _ _ _ e => (nomatch e), fun _ _ e => (nomatch e), fun _ _ _ _ e => (nomatch e)⟩

theorem stopOrder (header : Header) (direction pace : Byte) : Statement (.stopOrder header direction pace) :=
  fun _ => ⟨fun _ _ _ _ e => (nomatch e), fun _ _ e => (nomatch e), fun _ _ _ _ e => (nomatch e)⟩

theorem clearOrder (header : Header) (direction pace : Byte) : Statement (.clearOrder header direction pace) :=
  fun _ => ⟨fun _ _ _ _ e => (nomatch e), fun _ _ e => (nomatch e), fun _ _ _ _ e => (nomatch e)⟩

theorem holdFrame (header : Header) (reasons reach : Byte) : Statement (.holdFrame header reasons reach) :=
  fun _ => ⟨fun _ _ _ _ e => (nomatch e), fun _ _ e => (nomatch e), fun _ _ _ _ e => (nomatch e)⟩

theorem freeFrame (header : Header) : Statement (.freeFrame header) :=
  fun _ => ⟨fun _ _ _ _ e => (nomatch e), fun _ _ e => (nomatch e), fun _ _ _ _ e => (nomatch e)⟩

theorem answerFrame (header : Header) (item argument : Byte) (data : BitVec 64) : Statement (.answerFrame header item argument data) :=
  fun _ => ⟨fun _ _ _ _ e => (nomatch e), fun _ _ e => (nomatch e), fun _ _ _ _ e => (nomatch e)⟩

theorem haltRecord (header : Header) (target argument : Byte) : Statement (.haltRecord header target argument) := by
  intro _
  refine ⟨fun _ _ _ _ e => ?_, fun _ _ e => (nomatch e), fun _ _ _ _ e => (nomatch e)⟩
  injection e with e
  injection e with e₁ e₂
  injection e₂ with e₂ e₃
  injection e₃ with e₃ e₄
  subst e₁ e₂ e₃ e₄
  exact ⟨fun q => (nomatch q), fun q => (nomatch q)⟩

theorem rosterView (header : Header) (target argument : Byte) : Statement (.rosterView header target argument) := by
  intro w
  refine ⟨fun _ _ _ _ e => ?_, fun _ _ e => (nomatch e), fun _ _ _ _ e => (nomatch e)⟩
  injection e with e
  injection e with e₁ e₂
  injection e₂ with e₂ e₃
  injection e₃ with e₃ e₄
  subst e₁ e₂ e₃ e₄
  exact ⟨fun q => absurd (w.symm.trans q) (fun z => (nomatch z)), fun q => (nomatch q)⟩

theorem lineCounts (header : Header) (target argument : Byte) : Statement (.lineCounts header target argument) := by
  intro w
  refine ⟨fun _ _ _ _ e => ?_, fun _ _ e => (nomatch e), fun _ _ _ _ e => (nomatch e)⟩
  injection e with e
  injection e with e₁ e₂
  injection e₂ with e₂ e₃
  injection e₃ with e₃ e₄
  subst e₁ e₂ e₃ e₄
  exact ⟨fun q => absurd (w.symm.trans q) (fun z => (nomatch z)), fun q => (nomatch q)⟩

theorem driveCounts (header : Header) (target argument : Byte) : Statement (.driveCounts header target argument) := by
  intro _
  refine ⟨fun _ _ _ _ e => ?_, fun _ _ e => (nomatch e), fun _ _ _ _ e => (nomatch e)⟩
  injection e with e
  injection e with e₁ e₂
  injection e₂ with e₂ e₃
  injection e₃ with e₃ e₄
  subst e₁ e₂ e₃ e₄
  exact ⟨fun q => (nomatch q), fun q => (nomatch q)⟩

theorem configDigest (header : Header) (target argument : Byte) : Statement (.configDigest header target argument) := by
  intro _
  refine ⟨fun _ _ _ _ e => ?_, fun _ _ e => (nomatch e), fun _ _ _ _ e => (nomatch e)⟩
  injection e with e
  injection e with e₁ e₂
  injection e₂ with e₂ e₃
  injection e₃ with e₃ e₄
  subst e₁ e₂ e₃ e₄
  exact ⟨fun q => (nomatch q), fun q => (nomatch q)⟩

theorem holdView (header : Header) (target argument : Byte) : Statement (.holdView header target argument) := by
  intro w
  refine ⟨fun _ _ _ _ e => ?_, fun _ _ e => (nomatch e), fun _ _ _ _ e => (nomatch e)⟩
  injection e with e
  injection e with e₁ e₂
  injection e₂ with e₂ e₃
  injection e₃ with e₃ e₄
  subst e₁ e₂ e₃ e₄
  exact ⟨fun q => absurd (w.symm.trans q) (fun z => (nomatch z)), fun q => (nomatch q)⟩

theorem orderView (header : Header) (target argument : Byte) : Statement (.orderView header target argument) := by
  intro _
  refine ⟨fun _ _ _ _ e => ?_, fun _ _ e => (nomatch e), fun _ _ _ _ e => (nomatch e)⟩
  injection e with e
  injection e with e₁ e₂
  injection e₂ with e₂ e₃
  injection e₃ with e₃ e₄
  subst e₁ e₂ e₃ e₄
  exact ⟨fun q => (nomatch q), fun q => (nomatch q)⟩

theorem haltPoint (header : Header) (target argument : Byte) : Statement (.haltPoint header target argument) := by
  intro _
  refine ⟨fun _ _ _ _ e => ?_, fun _ _ e => (nomatch e), fun _ _ _ _ e => (nomatch e)⟩
  injection e with e
  injection e with e₁ e₂
  injection e₂ with e₂ e₃
  injection e₃ with e₃ e₄
  subst e₁ e₂ e₃ e₄
  exact ⟨fun q => (nomatch q), fun q => (nomatch q)⟩

theorem lineFaults (header : Header) (target argument : Byte) : Statement (.lineFaults header target argument) := by
  intro w
  refine ⟨fun _ _ _ _ e => ?_, fun _ _ e => (nomatch e), fun _ _ _ _ e => (nomatch e)⟩
  injection e with e
  injection e with e₁ e₂
  injection e₂ with e₂ e₃
  injection e₃ with e₃ e₄
  subst e₁ e₂ e₃ e₄
  exact ⟨fun q => absurd (w.symm.trans q) (fun z => (nomatch z)), fun q => (nomatch q)⟩

theorem askUnknownItem (header : Header) (target item argument : Byte) : Statement (.askUnknownItem header target item argument) := by
  intro w
  refine ⟨fun _ _ _ _ e => ?_, fun _ _ e => (nomatch e), fun _ _ _ _ e => (nomatch e)⟩
  injection e with e
  injection e with e₁ e₂
  injection e₂ with e₂ e₃
  injection e₃ with e₃ e₄
  subst e₁ e₂ e₃ e₄
  exact ⟨fun _ => rfl, fun _ => by simpa [Instr.wellFormed] using w⟩

theorem reportTimerExpiry : Statement .reportTimerExpiry :=
  fun _ => ⟨fun _ _ _ _ e => (nomatch e), fun _ _ e => (nomatch e), fun _ _ _ _ e => (nomatch e)⟩

theorem transmissionStart (times : GapTimes) : Statement (.transmissionStart times) :=
  fun _ => ⟨fun _ _ _ _ e => (nomatch e), fun _ _ e => (nomatch e), fun _ _ _ _ e => (nomatch e)⟩

theorem transmissionComplete : Statement .transmissionComplete :=
  fun _ => ⟨fun _ _ _ _ e => (nomatch e), fun _ _ e => (nomatch e), fun _ _ _ _ e => (nomatch e)⟩

theorem clash : Statement .clash :=
  fun _ => ⟨fun _ _ _ _ e => (nomatch e), fun _ _ e => (nomatch e), fun _ _ _ _ e => (nomatch e)⟩

theorem quietTimerExpiry (line : Line) : Statement (.quietTimerExpiry line) :=
  fun _ => ⟨fun _ _ _ _ e => (nomatch e), fun _ _ e => (nomatch e), fun _ _ _ _ e => (nomatch e)⟩

theorem seizeDetected (line : Line) : Statement (.seizeDetected line) :=
  fun _ => ⟨fun _ _ _ _ e => (nomatch e), fun _ _ e => (nomatch e), fun _ _ _ _ e => (nomatch e)⟩

theorem seizeEnd : Statement .seizeEnd :=
  fun _ => ⟨fun _ _ _ _ e => (nomatch e), fun _ _ e => (nomatch e), fun _ _ _ _ e => (nomatch e)⟩

theorem answerDiscard : Statement .answerDiscard :=
  fun _ => ⟨fun _ _ _ _ e => (nomatch e), fun _ _ e => (nomatch e), fun _ _ _ _ e => (nomatch e)⟩

theorem orderUndefinedAction (header : Header) (action direction pace : Byte) : Statement (.orderUndefinedAction header action direction pace) := by
  intro w
  refine ⟨fun _ _ _ _ e => (nomatch e), fun _ _ e => (nomatch e), fun _ _ _ _ e => ?_⟩
  injection e with e₁ e₂ e₃ e₄
  subst e₁ e₂ e₃ e₄
  have w : 3 ≤ action.toNat := by simpa [Instr.wellFormed] using w
  unfold actionOfCode
  split <;> first | rfl | omega

end Sys2Proof.Laws.WellFormedShape
end

