-- ==== Sys2Proof/Tests/Slice0.lean ====
section
/-! SUPPORT. Own tests: the well-formedness smoke, small steps of every command, the level tables, and for every
statement with hypotheses a state and operands that meet them together. -/
namespace Sys2Proof.Tests

set_option Elab.async false

open Sys2Proof Sys2Proof.Machine

/-! ### Small stations -/

/-- What a command leaves, through one reading of the next state. -/
def after {α : Type} (i : Instr) (s : State) (f : State → α) : Option α :=
  match exec i s with
  | .next t => some (f t)
  | .fault _ => none
  | .refused _ => none

/-- The 30 record bytes of a machine of four towers: level table A, window of four samples, RETRY in both modes. -/
def record : List Byte :=
  [2, 4, 1, 1, 2, 10, 0, 0, 0, 0, 0, 0, 0, 0, 2, 5, 0, 0xA7, 0x11, 0, 40, 1, 30, 15, 3, 2, 3, 60, 30, 8]

/-- Its image with some bytes replaced and the CRC made to fit. -/
def image (changes : List (Nat × Byte)) : List Byte :=
  let bytes := changes.foldl (fun l c => l.set c.1 c.2) record
  bytes ++ bytes16 (crcOf bytes)

/-- The record in force of the small stations. -/
def config : ConfigRecord := ConfigRecord.ofBytes record

/-- A hold of tower 1 against the towers 2 to 4. -/
def holdRecord : HoldRecord :=
  { reasons := { ReasonSet.empty with stall := true }, reach := 3, order := 17, placed := 0 }

/-- A station of that machine that stands in a drive state, FORWARD and rested, under order 17 when it is underway. -/
def station (own : Position) (d : DriveState) : State :=
  { State.reset with
    resets := { powerOn := false, pin := false }
    loader := { state := .passed, own := own, config := config, crc := 0x1234,
                offlineCause := if d = .offline then some .positionConflict else none }
    drive := { DriveControl.reset with
      state := d, rest := .rested, runOutput := decide (d = .run), lamp := decide (d = .halted)
      dwellTimer := if d = .dwell then some 80 else none }
    governor := { Governor.reset with levels := config.levelSet, size := 4,
                                      window := if d = .run then [50] else [], lead := if d = .run then some 50 else none,
                                      runRequest := decide (d = .run) }
    sensor := { SensorPort.reset with exchange := if own = 4 then .stopped else .resting
                                      sampleTimer := if own = 4 then none else some 5 }
    stride := { StrideMonitor.reset with
      filterAsserted := false, contactorOn := decide (d = .run)
      stallTimer := if d = .run then some 300 else none, retryPause := if d = .stalled then some 150 else none }
    pace := if own = 4 then { PaceTimer.reset with
        running := decide (d = .wait ∨ d = .run), pace := 60, onLength := 360, request := decide (d = .run) }
      else PaceTimer.reset
    holds := if d = .held then
        { HoldTable.reset with records := HoldTable.reset.records.set 1 (some holdRecord) }
      else HoldTable.reset
    orders := if d.isUnderway then
        { OrderUnit.reset with
          unset := false, number := 17, action := .run, pace := 60, counting := decide (d = .muster)
          musterTimer := if d = .muster then some 300 else none, blocker := if d = .muster then some .loop else none }
      else OrderUnit.reset
    halt := { HaltUnit.reset with
      latched := decide (d = .halted), loopClosed := decide (d ≠ .halted ∧ d ≠ .offline)
      record := if d = .halted then { HaltRecord.empty with cause := some .seized, priorState := .run } else HaltRecord.empty }
    roster := Roster.reset.atChecks own 4
    line := { SpanLine.reset with reportTimer := if d = .offline then none else some 20 } }

/-- The same station at the end of every time held in tenths that runs, and of the ON part of its period. -/
def due (s : State) : State :=
  let ended (x : Option Nat) : Option Nat := x.map (fun _ => 0)
  { s with
    drive := { s.drive with dwellTimer := ended s.drive.dwellTimer, blinkTimer := ended s.drive.blinkTimer }
    sensor := { s.sensor with sampleTimer := ended s.sensor.sampleTimer }
    stride := { s.stride with stallTimer := ended s.stride.stallTimer, retryPause := ended s.stride.retryPause }
    orders := { s.orders with musterTimer := ended s.orders.musterTimer }
    pace := { s.pace with position := s.pace.onLength }
    line := { s.line with reportTimer := ended s.line.reportTimer } }

/-- The station as it is while its configuration is being read. -/
def startUp : State :=
  { State.reset with
    resets := { powerOn := false, pin := false }
    loader := { Loader.reset with own := 3 }
    sensor := { SensorPort.reset with exchange := .configRead, select1 := true, clock := .running }
    drive := { DriveControl.reset with rest := .resting 10 } }

/-- A frame header on line A. -/
def header (source : Position) (seq order : Byte) : Header := { line := .a, source := source, seq := seq, order := order }

/-- The same station with its port shifting. -/
def shifting (s : State) : State :=
  { s with sensor := { s.sensor with exchange := .shifting, select0 := true, clock := .running } }

/-- A record of another position that is heard. -/
def heardAs (presence : Presence) (order : Byte) : RosterRecord :=
  { presence := presence, expected := true, age := 4, lastSeq := some 9, missed := 0, accepted := 5
    reported := some { state := 3, order := some order, ready := true, cause := 0, origin := 0xFF } }

/-- The same station with one roster record replaced. -/
def withRecord (s : State) (p : Position) (r : RosterRecord) : State := { s with roster := s.roster.put p r }

/-! ### The standing facts of the small stations -/

/-- The standing facts of the run decision, as one question that evaluates. -/
theorem driveInv_of (s : State)
    (h : decide (s.settledState = s.drive.state ∧ s.drive.runOutput = decide (s.drive.state = .run)
      ∧ s.stride.contactorOn = s.drive.runOutput
      ∧ s.halt.loopClosed = decide (s.drive.state ≠ .offline ∧ s.drive.state ≠ .halted)
      ∧ (s.stride.stallTimer ≠ none → s.drive.state = .run)
      ∧ (s.loader.state ≠ .passed → s.orders.unset = true ∧ s.halt.latched = false)
      ∧ (s.loader.state = .reading → s.loader.offlineCause = none) ∧ (s.inReset = true → s.loader.state = .reading)
      ∧ (s.drive.state = .offline → s.line.transmitter = .released ∧ s.line.claimSlot = none ∧ s.line.answerSlot = none
          ∧ s.line.statusSlot = false ∧ s.line.reportTimer = none)) = true) : s.DriveInv := by
  obtain ⟨a, b, c, d, e, f, g, k, l⟩ := of_decide_eq_true h
  exact ⟨a, ⟨b, c⟩, d, e, ⟨f, g, k⟩, l⟩

theorem station_drive (d : DriveState) : (station 3 d).DriveInv ∧ (station 4 d).DriveInv := by
  cases d <;> exact ⟨driveInv_of _ (by decide +kernel), driveInv_of _ (by decide +kernel)⟩

theorem startUp_drive : startUp.DriveInv := driveInv_of _ (by decide +kernel)

theorem test_reset_drive : State.reset.DriveInv := driveInv_of _ (by decide +kernel)


theorem holdInv_of (s : State)
    (h : decide ((∀ p : Position, ∀ r ∈ s.holds.recordOf p, 1 ≤ p.toNat ∧ covers p r.reach.toNat s.own = true
        ∧ s.orderInForce = some r.order ∧ r.reasons.isEmpty = false)
      ∧ (s.loader.state ≠ .passed → s.holds.records = Vector.replicate 32 none)
      ∧ (s.inReset = true → s.loader.state = .reading)) = true) : s.HoldInv := by
  obtain ⟨a, b, c⟩ := of_decide_eq_true h
  exact ⟨a, b, c⟩

theorem rosterInv_of (s : State)
    (h : decide ((s.loader.state = .passed → (s.roster.recordOf s.own).presence = .current
        ∧ (s.roster.recordOf s.own).age = 0 ∧ (s.roster.recordOf s.own).missed = 0)
      ∧ (s.loader.state = .passed → ∀ p : Position, (s.roster.recordOf p).expected = decide (p.toNat ≤ s.towers))
      ∧ (s.loader.state = .passed → ∀ p : Position, s.towers < p.toNat → (s.roster.recordOf p).presence = .absent
          ∧ (s.roster.recordOf p).age = 0 ∧ (s.roster.recordOf p).lastSeq = none ∧ (s.roster.recordOf p).reported = none)
      ∧ (s.loader.state = .passed → s.own.toNat ≤ s.towers)
      ∧ (s.loader.state ≠ .passed → s.roster.records = Vector.replicate 32 RosterRecord.reset)) = true) : s.RosterInv := by
  obtain ⟨a, b, c, d, e⟩ := of_decide_eq_true h
  exact ⟨a, b, c, d, e⟩

theorem leadInv_of (s : State)
    (h : decide (s.governor.lead = leadOf s.governor.window s.drive.direction
      ∧ s.governor.window.length ≤ s.governor.size ∧ (∀ b ∈ s.governor.window, -1500 ≤ b ∧ b ≤ 1500)
      ∧ (s.loader.state ≠ .passed → s.governor.window = [])
      ∧ (s.loader.state = .passed → s.governor.size = windowSize s.config.windowCode
          ∧ s.governor.levels = s.config.levelSet)) = true) : s.LeadInv := by
  obtain ⟨a, b, c, d, e⟩ := of_decide_eq_true h
  exact ⟨a, b, c, d, e⟩

theorem claimInv_of (s : State)
    (h : decide (s.claim.reach = s.reachOf s.claim.reasons ∧ (s.isPacer = true → s.claim.reasons = ReasonSet.empty)
      ∧ (s.loader.state ≠ .passed → s.claim.reasons = ReasonSet.empty)
      ∧ (s.loader.state = .passed → s.own.toNat ≤ s.towers)
      ∧ (s.inReset = true → s.loader.state = .reading)) = true) : s.ClaimInv := by
  obtain ⟨a, b, c, d, e⟩ := of_decide_eq_true h
  exact ⟨a, b, c, d, e⟩

theorem timerInv_of (s : State)
    (h : decide ((s.drive.dwellTimer ≠ none → s.drive.state = .dwell)
      ∧ (s.stride.retryPause ≠ none → s.drive.state = .stalled)
      ∧ (s.orders.counting = true ∨ s.orders.musterTimer ≠ none → s.drive.state = .muster)
      ∧ (s.stride.coastWindow ≠ none → s.stride.contactorOn = false ∧ s.drive.state ≠ .offline)
      ∧ (s.drive.blinkTimer ≠ none → s.drive.state = .offline ∧ s.loader.offlineCause ≠ none)
      ∧ s.pace.running = decide (s.isPacer = true ∧ (s.drive.state = .wait ∨ s.drive.state = .run))
      ∧ (s.isPacer = false ∨ s.loader.state ≠ .passed → s.pace = PaceTimer.reset)) = true) : s.TimerInv := by
  obtain ⟨a, b, c, d, e, f, g⟩ := of_decide_eq_true h
  exact ⟨a, b, c, d, e, f, g⟩

theorem portInv_of (s : State)
    (h : decide (s.sensor.select0 = decide (s.sensor.exchange = .readyWait ∨ s.sensor.exchange = .shifting)
      ∧ s.sensor.select1 = decide (s.sensor.exchange = .configRead)
      ∧ (s.sensor.clock = .running ↔ s.sensor.exchange = .shifting ∨ s.sensor.exchange = .configRead)
      ∧ (s.sensor.exchange = .stopped ∨ s.sensor.exchange = .configRead → s.sensor.sampleTimer = none)
      ∧ (s.sensor.readyTimer ≠ none → s.sensor.exchange = .readyWait)
      ∧ (s.sensor.exchange = .configRead → s.loader.state = .reading)
      ∧ (s.inReset = true → s.sensor.exchange = .stopped)) = true) : s.PortInv := by
  obtain ⟨a, b, c, d, e, f, g⟩ := of_decide_eq_true h
  exact ⟨a, b, c, d, e, f, g⟩

theorem station_timed (d : DriveState) : (station 3 d).TimerInv ∧ (station 4 d).TimerInv := by
  cases d <;> exact ⟨timerInv_of _ (by decide +kernel), timerInv_of _ (by decide +kernel)⟩

theorem station_port (d : DriveState) : (station 3 d).PortInv ∧ (station 4 d).PortInv := by
  cases d <;> exact ⟨portInv_of _ (by decide +kernel), portInv_of _ (by decide +kernel)⟩

theorem station_blocks : (station 3 .run).LeadInv ∧ (station 3 .run).RosterInv ∧ (station 3 .held).HoldInv
    ∧ (station 3 .run).ClaimInv :=
  ⟨leadInv_of _ (by decide +kernel), rosterInv_of _ (by decide +kernel), holdInv_of _ (by decide +kernel),
   claimInv_of _ (by decide +kernel)⟩

theorem hears_of (s : State) (h : Header)
    (g : decide (s.inReset = false ∧ (s.loader.state = .passed ∨ s.loader.state = .failed) ∧ s.line.transmitter ≠ .seizing
      ∧ s.line.readsBack h.line = false ∧ (s.line.lineState h.line).receiver ≠ .discarding
      ∧ (s.line.lineState h.line).ownFrame = false) = true) : s.Hears h := by
  obtain ⟨a, b, c, d, e, f⟩ := of_decide_eq_true g
  exact ⟨a, b, c, d, e, f⟩

theorem accepts_of (s : State) (h : Header) (k : FrameClass) (p : s.Hears h)
    (g : decide (s.active = true ∧ h.source ≠ s.own ∧ h.source.toNat ≤ s.towers ∧ k.acceptsFrom h.source = true
      ∧ ¬(((s.roster.recordOf h.source).presence = .current ∨ (s.roster.recordOf h.source).presence = .stale)
        ∧ (s.roster.recordOf h.source).lastSeq = some h.seq)) = true) : s.Accepts h k := by
  obtain ⟨a, b, c, d, e⟩ := of_decide_eq_true g
  exact ⟨p, a, b, c, d, e⟩

/-- Every small station outside OFFLINE accepts a frame of the panel and of tower 1. -/
theorem station_accepts (d : DriveState) (hd : d ≠ .offline) (q o : Byte) (k : FrameClass)
    (p : Position) (hp : k.acceptsFrom p = true) (hp' : p = 0 ∨ p = 1) : (station 3 d).Accepts (header p q o) k := by
  refine accepts_of _ _ _ (hears_of _ _ ?_) ?_
  · cases d <;> rfl
  · simp only [header, hp]
    rcases hp' with rfl | rfl <;> cases d <;> first | exact absurd rfl hd | rfl

/-! ### Well-formedness: one ill-formed command for each check -/

theorem test_illFormed_shortImage : (Instr.configReadComplete [2, 4] false).wellFormed = false := by decide
theorem test_illFormed_rosterView : (Instr.rosterView (header 0 1 17) 3 33).wellFormed = false := by decide
theorem test_illFormed_lineCounts : (Instr.lineCounts (header 0 1 17) 3 2).wellFormed = false := by decide
theorem test_illFormed_holdView : (Instr.holdView (header 0 1 17) 3 32).wellFormed = false := by decide
theorem test_illFormed_lineFaults : (Instr.lineFaults (header 0 1 17) 3 2).wellFormed = false := by decide
theorem test_illFormed_knownItem : (Instr.askUnknownItem (header 0 1 17) 3 7 0).wellFormed = false := by decide
theorem test_illFormed_definedAction : (Instr.orderUndefinedAction (header 0 1 17) 2 0 60).wellFormed = false := by decide
theorem test_wellFormed_boundaries :
    (Instr.rosterView (header 0 1 17) 3 32).wellFormed = true ∧ (Instr.holdView (header 0 1 17) 3 31).wellFormed = true
    ∧ (Instr.askUnknownItem (header 0 1 17) 3 10 0).wellFormed = true
    ∧ (Instr.askUnknownItem (header 0 1 17) 3 2 33).wellFormed = true
    ∧ (Instr.orderUndefinedAction (header 0 1 17) 3 0 60).wellFormed = true
    ∧ (Instr.configReadComplete (image []) false).wellFormed = true := by decide +kernel
theorem test_noRowHasBits : decodeTableWord 8 0 = none ∧ decodeTableWord 16 0x1234 = none := by decide

/-! ### Figures the spec prints -/

theorem test_crc_check_value : crcOf [0x31, 0x32, 0x33, 0x34, 0x35, 0x36, 0x37, 0x38, 0x39] = 0x29B1 := by
  decide +kernel

/-- The HOLD of Chapter 11's example: lead, 0x43, 0x11, 0x34, body 0x01 0x01, and two CRC characters. -/
theorem test_hold_example : (assembleFrame 2 3 0x11 0x34 [1, 1]).take 6 = [0xB4, 0x43, 0x11, 0x34, 0x01, 0x01]
    ∧ (assembleFrame 2 3 0x11 0x34 [1, 1]).length = 8
    ∧ checkFrame (assembleFrame 2 3 0x11 0x34 [1, 1]) = none := by decide +kernel

/-- Numbers ahead of 250 (00 section 6.5). -/
theorem test_ahead_example : (ahead 251 250 && ahead 255 250 && ahead 0 250 && ahead 121 250) = true
    ∧ (ahead 250 250 || ahead 122 250 || ahead 200 250) = false := by decide

theorem test_level_tables :
    (ConfigRecord.ofBytes (image [(6, 1)])).levelSet = { stop := 20, start := 60, resume := 120, hold := 200, halt := 500 }
    ∧ (ConfigRecord.ofBytes (image [(6, 2)])).levelSet
        = { stop := 30, start := 100, resume := 180, hold := 300, halt := 700 }
    ∧ (ConfigRecord.ofBytes (image [(6, 3), (8, 60), (10, 200), (11, 1), (12, 0xF4), (13, 6)])).levelSet
        = { stop := 20, start := 60, resume := 160, hold := 200, halt := 500 } := by decide +kernel

theorem test_window_sizes : [0, 1, 2, 3].map windowSize = [1, 2, 4, 8] := by decide

/-- The mean of the reversal example (01 section 1.8): -144 over four is -36; 244 over four is +61. -/
theorem test_mean_examples : leadOf [38, 37, 35, 34] .reverse = some (-36) ∧ leadOf [-55, -58, -62, -69] .reverse = some 61
    ∧ leadOf [-2, -1] .forward = some (-1) := by decide +kernel

theorem test_own_level_ready : config.readyAsserted true = true ∧ config.readyAsserted false = false
    ∧ (ConfigRecord.ofBytes (image [(19, 1)])).readyAsserted false = true := by decide +kernel

/-! ### One step of each command -/

theorem test_powerOnReset : after .powerOnReset (station 3 .run) (fun t => (t.drive.state, t.resets.powerOn, t.inReset))
    = some (.offline, true, true) := by decide +kernel

theorem test_powerOnResetEnd : after (.powerOnResetEnd 3) State.reset
    (fun t => (t.loader.own, t.drive.rest, t.sensor.exchange, t.sensor.select1, t.inReset))
    = some (3, .resting 10, .configRead, true, false) := by decide +kernel

theorem test_resetPinAssert : after .resetPinAssert (station 3 .halted) (fun t => (t.halt.record.cause, t.halt.latched))
    = some (some .seized, false) := by decide +kernel

theorem test_resetPinRelease : after (.resetPinRelease 5) { State.reset with resets := { powerOn := false, pin := true } }
    (fun t => (t.loader.own, t.sensor.exchange)) = some (5, .configRead) := by decide +kernel

theorem test_configReadComplete : after (.configReadComplete (image []) true) startUp
    (fun t => (t.drive.state, t.loader.state, t.halt.loopClosed, t.sensor.exchange, t.line.statusSlot))
    = some (.idle, .passed, true, .shifting, true) := by decide +kernel

theorem test_configReadComplete_range : after (.configReadComplete (image [(1, 2)]) true) startUp
    (fun t => (t.drive.state, t.loader.offlineCause, t.drive.lamp)) = some (.offline, some .positionRange, true) := by
  decide +kernel

theorem test_contactorRestEnd : after .contactorRestEnd
    (let s := station 3 .wait
     { s with drive := { s.drive with rest := .resting 0 }, governor := { s.governor with runRequest := true } })
    (fun t => (t.drive.state, t.drive.rest)) = some (.run, .rested) := by decide +kernel

theorem test_dwellTimerExpiry : after .dwellTimerExpiry (due (station 3 .dwell))
    (fun t => (t.drive.state, t.orders.counting, t.orders.musterTimer)) = some (.muster, true, some 300) := by
  decide +kernel

theorem test_lampBlinkStep : after .lampBlinkStep
    (let s := station 3 .offline
     { s with drive := { s.drive with lamp := true, blinkPhase := 6, blinkTimer := some 0 } })
    (fun t => (t.drive.lamp, t.drive.blinkPhase, t.drive.blinkTimer)) = some (false, 7, some 25) := by decide +kernel

theorem test_localTimeTick : after .localTimeTick (station 3 .run)
    (fun t => (t.localTime, t.stride.runTime, t.stride.stallTimer, t.line.reportTimer))
    = some (1, 1, some 299, some 19) := by decide +kernel

theorem test_sampleTimerExpiry : after (.sampleTimerExpiry false) (due (station 3 .idle))
    (fun t => (t.sensor.exchange, t.sensor.select0, t.sensor.readyTimer)) = some (.readyWait, true, some 40) := by
  decide +kernel

theorem test_readyAssert : after .readyAssert
    (let s := station 3 .idle
     { s with sensor := { s.sensor with exchange := .readyWait, readyTimer := some 7 } })
    (fun t => (t.sensor.exchange, t.sensor.readyTimer, t.sensor.dataOut)) = some (.shifting, none, [0x11, 0, 0]) := by
  decide +kernel

theorem test_readyTimeout : after (.readyTimeout false)
    (let s := station 3 .run
     { s with sensor := { s.sensor with exchange := .readyWait } })
    (fun t => (t.drive.state, t.sensor.consecutiveFailures, t.governor.lead)) = some (.wait, 1, none) := by
  decide +kernel

theorem test_short : after (.short false)
    (let s := shifting (station 3 .run)
     { s with sensor := { s.sensor with consecutiveFailures := 4 } })
    (fun t => (t.drive.state, t.halt.record.cause)) = some (.halted, some .sensor) := by decide +kernel

theorem test_shiftComplete_good : after (.shiftComplete 0xA70032 false) (shifting (station 3 .wait))
    (fun t => (t.drive.state, t.governor.lead)) = some (.run, some 50) := by decide +kernel

theorem test_shiftComplete_misalign : after (.shiftComplete 0xA7FAEC false) (shifting (station 3 .wait))
    (fun t => (t.drive.state, t.halt.record.cause, t.halt.record.lead)) = some (.halted, some .misalign, -1300) := by
  decide +kernel

theorem test_wheelInputChange : after (.wheelInputChange true) (station 3 .run)
    (fun t => (t.stride.wheelHigh, t.stride.heldFor, t.stride.strideCount)) = some (true, 0, 0) := by decide +kernel

theorem test_wheelPulse_stallClear : after .wheelPulse
    (let s := station 3 .run
     { s with stride := { s.stride with segmentPulses := 3, stallMark := true, consecutiveStalls := 2 }
              claim := { ClaimUnit.reset with reasons := { ReasonSet.empty with stall := true }, reach := 1 } })
    (fun t => (t.stride.strideCount, t.stride.stallMark, t.stride.consecutiveStalls, t.claim.reasons.stall))
    = some (1, false, 0, false) := by decide +kernel

theorem test_wheelPulse_creepHalt : after .wheelPulse
    (let s := station 3 .wait
     { s with stride := { s.stride with creepCount := 3 } })
    (fun t => (t.drive.state, t.halt.record.cause, t.stride.creepPulses)) = some (.halted, some .creep, 1) := by
  decide +kernel

theorem test_pulseFilterRelease : after .pulseFilterRelease
    (let s := station 3 .run
     { s with stride := { s.stride with filterAsserted := true } })
    (fun t => t.stride.filterAsserted) = some false := by decide +kernel

theorem test_stallTimerExpiry : after .stallTimerExpiry (due (station 3 .run))
    (fun t => (t.drive.state, t.claim.reach, t.stride.consecutiveStalls, t.line.claimSlot))
    = some (.stalled, 1, 1, some .hold) := by decide +kernel

/-- A pulse taken before the expiry of the stall timer: no stall (R62). An expiry taken first: a stall, and the pulse is
coast. -/
theorem test_pulseBeforeStall :
    after .wheelPulse (due (station 3 .run)) (fun t => after .stallTimerExpiry t fun u =>
      (u.drive.state, u.stride.stallTimer, u.stride.segmentPulses, u.stride.stallEvents))
      = some (some (.run, some 300, 1, 0))
    ∧ after .stallTimerExpiry (due (station 3 .run)) (fun t => after .wheelPulse t fun u =>
      (u.drive.state, u.stride.stallEvents, u.stride.coastCount)) = some (some (.stalled, 1, 1)) := by decide +kernel

/-- A reversal taken before the end of the dwell starts it again (R6). -/
theorem test_reversalBeforeDwellEnd : after (.runOrder (header 0 1 18) 1 60) (due (station 3 .dwell))
    (fun t => after .dwellTimerExpiry t fun u => (u.drive.state, u.drive.dwellTimer)) = some (some (.dwell, some 80)) := by
  decide +kernel

theorem test_retryPauseEnd : after .retryPauseEnd (due (station 3 .stalled)) (fun t => (t.drive.state, t.stride.retryPause))
    = some (.wait, none) := by decide +kernel

theorem test_coastWindowExpiry : after .coastWindowExpiry
    (let s := station 3 .wait
     { s with stride := { s.stride with coastWindow := some 0 } })
    (fun t => t.stride.coastWindow) = some none := by decide +kernel

theorem test_endOfOnPart : after .endOfOnPart (due (station 4 .run)) (fun t => (t.drive.state, t.pace.request, t.pace.position))
    = some (.wait, false, 360) := by decide +kernel

theorem test_endOfPeriod : after .endOfPeriod
    (let s := station 4 .wait
     { s with pace := { s.pace with pendingPace := some 70, position := 600 } })
    (fun t => (t.drive.state, t.pace.onLength, t.pace.position, t.pace.request)) = some (.run, 420, 0, true) := by
  decide +kernel

/-- The same record with another age, in tenths. -/
def aged (r : RosterRecord) (age : BitVec 16) : RosterRecord := { r with age := age }

/-- The stale age is 6.0 s here: at it the record stays CURRENT, past it it becomes STALE. -/
theorem test_staleAgePassed :
    ([60, 61].map fun n => after (.staleAgePassed 1) (withRecord (station 3 .run) 1 (aged (heardAs .current 17) n))
      (fun t => ((t.roster.recordOf 1).presence, (t.roster.recordOf 1).age, t.drive.state)))
    = [some (.current, 60, .run), some (.stale, 61, .run)] := by decide +kernel

/-- The lost limit is 10.0 s here. -/
theorem test_lostLimitPassed :
    ([100, 101].map fun n => after (.lostLimitPassed 1) (withRecord (station 3 .run) 1 (aged (heardAs .stale 17) n))
      (fun t => ((t.roster.recordOf 1).presence, t.drive.state, t.halt.record.cause, t.halt.record.origin)))
    = [some (.stale, .run, none, none), some (.lost, .halted, some .peerLost, some 1)] := by decide +kernel

/-- A frame taken before the queued end of an age keeps its record CURRENT (R115). -/
theorem test_frameBeforeLostLimit :
    after (.freeFrame (header 1 1 17)) (withRecord (station 3 .run) 1 (aged (heardAs .stale 17) 101))
      (fun t => (after (.lostLimitPassed 1) t fun u => ((u.roster.recordOf 1).presence, u.drive.state)))
    = some (some (.current, .run)) := by decide +kernel

theorem test_musterTimerExpiry : after .musterTimerExpiry (due (station 3 .muster))
    (fun t => (t.drive.state, t.halt.record.cause)) = some (.halted, some .musterTimeout) := by decide +kernel

theorem test_loopSenseChange : after (.loopSenseChange true) (station 3 .idle)
    (fun t => (t.halt.rawSense, t.halt.settledSense)) = some (true, false) := by decide +kernel

theorem test_loopSenseSettled : after .loopSenseSettled
    (let s := station 3 .run
     { s with halt := { s.halt with settledSense := true, differsFor := 2 } })
    (fun t => (t.drive.state, t.halt.record.cause, t.halt.record.origin)) = some (.halted, some .loopOpen, none) := by
  decide +kernel

theorem test_characterReceived : after (.characterReceived .b { seventh := 0x368, eighth := 0x369, ninth := 0x368 })
    (station 3 .idle) (fun t => (t.line.lineB.receiver, t.line.lineB.characters, t.line.lineB.counters.noisy))
    = some (.collecting, [0xB4], 1) := by decide +kernel

theorem test_receiverIdle : after (.receiverIdle .a)
    (let s := station 3 .idle
     { s with line := { s.line with lineA := { s.line.lineA with receiver := .discarding, armed := false } } })
    (fun t => (t.line.lineA.receiver, t.line.lineA.armed)) = some (.idle, true) := by decide +kernel

theorem test_frameCheckFailed : after (.frameCheckFailed .a)
    (let s := station 3 .idle
     { s with line := { s.line with lineA := { s.line.lineA with receiver := .collecting, characters := [0xB4, 1, 2] } } })
    (fun t => (t.line.lineA.receiver, t.line.lineA.counters.format)) = some (.idle, 1) := by decide +kernel

/-- A STATUS body of a tower with its order set and ready. -/
def body (state reasons reach : Byte) : StatusBody :=
  { state := state, flags := 0x0E, lead := 0, strides := 0, reasons := reasons, reach := reach, cause := 0,
    origin := 0xFF, actionDirection := 0x10, pace := 60 }

theorem test_statusFrame_restates : after (.statusFrame (header 1 9 17) (body 5 1 2)) (station 3 .run)
    (fun t => (t.drive.state, ((t.roster.recordOf 1).reported.map Reported.state))) = some (.held, some 5) := by
  decide +kernel

theorem test_statusFrame_restart : after (.statusFrame (header 0 9 17) (body 1 0 0)) (station 3 .idle)
    (fun t => (t.drive.state, t.halt.record.cause, t.orders.number)) = some (.halted, some .restart, 17) := by
  decide +kernel

theorem test_runOrder_muster : after (.runOrder (header 0 1 18) 0 60) (station 3 .idle)
    (fun t => (t.drive.state, t.orders.number, t.orders.blocker)) = some (.muster, 18, some .loop) := by decide +kernel

theorem test_runOrder_reversal : after (.runOrder (header 0 1 18) 1 160) (station 3 .run)
    (fun t => (t.drive.state, t.drive.direction, t.drive.dwellTimer, t.orders.pace))
    = some (.dwell, .reverse, some 80, 100) := by decide +kernel

theorem test_stopOrder : after (.stopOrder (header 0 1 18) 0 60) (station 3 .run)
    (fun t => (t.drive.state, t.drive.rest, t.orders.action)) = some (.idle, .resting 10, .stop) := by decide +kernel

theorem test_clearOrder : after (.clearOrder (header 0 1 18) 0 60) (station 3 .halted)
    (fun t => (t.drive.state, t.halt.latched, t.halt.record.cause)) = some (.idle, false, some .seized) := by
  decide +kernel

theorem test_orderUndefinedAction : after (.orderUndefinedAction (header 0 1 18) 3 0 60) (station 3 .run)
    (fun t => (t.drive.state, t.orders.number, t.orders.refused)) = some (.run, 17, 1) := by decide +kernel

theorem test_holdFrame : after (.holdFrame (header 1 1 17) 1 2) (station 3 .run)
    (fun t => (t.drive.state, t.holds.isEmpty)) = some (.held, false) := by decide +kernel

theorem test_holdFrame_unapplied : after (.holdFrame (header 1 1 17) 1 2)
    (let s := station 3 .halted
     { s with orders := { s.orders with unset := false, number := 17 } })
    (fun t => (t.holds.isEmpty, t.holds.unappliedHold)) = some (true, 1) := by decide +kernel

theorem test_freeFrame : after (.freeFrame (header 1 1 17)) (station 3 .held)
    (fun t => (t.drive.state, t.holds.isEmpty)) = some (.wait, true) := by decide +kernel

theorem test_answerFrame : after (.answerFrame (header 1 1 17) 1 0 0) (station 3 .run)
    (fun t => ((t.roster.recordOf 1).presence, t.drive.state)) = some (.current, .run) := by decide +kernel

/-- Each question placed for this station, and one that another station is asked. -/
theorem test_questions :
    ([Instr.haltRecord (header 0 1 17) 3 0, .rosterView (header 0 1 17) 3 32, .lineCounts (header 0 1 17) 3 1,
      .driveCounts (header 0 1 17) 3 0, .configDigest (header 0 1 17) 3 0, .holdView (header 0 1 17) 3 31,
      .orderView (header 0 1 17) 3 0, .haltPoint (header 0 1 17) 3 0, .lineFaults (header 0 1 17) 3 1,
      .askUnknownItem (header 0 1 17) 3 77 0].map
        fun i => after i (station 3 .idle) (fun t => t.line.answerSlot.map (fun a => (a.item.toNat, a.argument.toNat, a.discard))))
    = [some (some (1, 0, 20)), some (some (2, 32, 20)), some (some (3, 1, 20)), some (some (4, 0, 20)),
       some (some (5, 0, 20)), some (some (6, 31, 20)), some (some (7, 0, 20)), some (some (8, 0, 20)),
       some (some (9, 1, 20)), some (some (77, 0, 20))]
    ∧ after (.haltRecord (header 0 1 17) 2 0) (station 3 .idle) (fun t => t.line.answerSlot) = some none := by
  decide +kernel

theorem test_reportTimerExpiry : after .reportTimerExpiry (due (station 3 .run))
    (fun t => (t.line.statusSlot, t.line.reportTimer)) = some (true, none) := by decide +kernel

/-- A STATUS waits 36 + 3 character times at position 3, after a clash from the clash. -/
theorem test_transmissionStart :
    (let s := station 3 .idle
     let u (clashed : Bool) : State := { s with line := { s.line with statusSlot := true, gapFromClash := clashed } }
     ([(false, 38, 0), (false, 39, 0), (true, 900, 38), (true, 900, 39)].map fun x =>
        after (.transmissionStart ⟨x.2.1, x.2.2⟩) (u x.1) (fun t => decide (t.line.transmitter = .released)))
       = [some true, some false, some true, some false]) := by decide +kernel

/-- A STATUS on the line. -/
def sendingStatus (s : State) : State := { s with line := { s.line with transmitter := .sending (s.buildFrame .status) } }

theorem test_transmissionComplete : after .transmissionComplete (sendingStatus (station 3 .idle))
    (fun t => (t.line.transmitter, t.line.yieldBias, t.line.reportTimer, (t.roster.recordOf 3).lastSeq))
    = some (.released, true, some 20, some 0) := by decide +kernel

theorem test_clash : after .clash (sendingStatus (station 3 .idle))
    (fun t => (t.line.transmitter, t.line.statusSlot, t.line.statusClashes, t.line.lineA.counters.clashes,
      t.line.gapFromClash))
    = some (.released, true, 1, 1, true) := by decide +kernel

theorem test_clash_eighth : after .clash
    (let s := sendingStatus (station 3 .run)
     { s with line := { s.line with consecutiveClashes := 7 } })
    (fun t => (t.drive.state, t.loader.offlineCause)) = some (.offline, some .positionConflict) := by decide +kernel

theorem test_quietTimerExpiry : after (.quietTimerExpiry .a)
    (let s := station 3 .run
     { s with line := { s.line with lineA := { s.line.lineA with alive := true, quietTimer := some 0 }
                                    lineB := { s.line.lineB with alive := true } } })
    (fun t => (t.line.lineA.alive, t.line.sendLine)) = some (false, .b) := by decide +kernel

/-- A timer restarted by a frame is not ended by the expiry queued before it (R162). -/
theorem test_frameBeforeQuietTimer : after (.freeFrame (header 1 1 17))
    (let s := station 3 .run
     { s with line := { s.line with lineA := { s.line.lineA with alive := true, quietTimer := some 0 } } })
    (fun t => after (.quietTimerExpiry .a) t fun u => (u.line.lineA.alive, u.line.lineA.quietTimer))
    = some (some (true, some 100)) := by decide +kernel

/-- A DISCARDING receiver takes and counts nothing. -/
theorem test_discardingTakesNothing : after (.freeFrame (header 1 1 17))
    (let s := station 3 .run
     { s with line := { s.line with lineA := { s.line.lineA with receiver := .discarding } } })
    (fun t => (t.line.lineA.counters.good, t.line.lineA.receiver, (t.roster.recordOf 1).presence))
    = some (0, .discarding, .absent) := by decide +kernel

theorem test_seizeDetected : after (.seizeDetected .b) (station 3 .run)
    (fun t => (t.drive.state, t.halt.record.cause, t.line.lineB.armed, t.line.transmitter))
    = some (.halted, some .seized, false, .released) := by decide +kernel

theorem test_seizeEnd : after .seizeEnd
    (let s := station 3 .halted
     { s with line := { s.line with transmitter := .seizing, lineA := { s.line.lineA with dominantRun := 20 } } })
    (fun t => (t.line.transmitter, t.line.lineA.dominantRun)) = some (.released, 0) := by decide +kernel

/-- An ANSWER cut by a seize while a newer one waits: the newer one stays and its slot's clash count is 0 (R140). -/
theorem test_seizeCutsAnswer : after (.lostLimitPassed 1)
    (let s := withRecord (station 3 .run) 1 (aged (heardAs .stale 17) 101)
     { s with line := { s.line with
        transmitter := .sending (s.buildFrame (.answer { item := 1, argument := 0, discard := 3 }))
        answerSlot := some { item := 2, argument := 0, discard := 20 }, answerClashes := 2 } })
    (fun t => (t.line.transmitter, t.line.answerSlot.map (fun a => a.item), t.line.answerClashes))
    = some (.seizing, some 2, 0) := by decide +kernel

theorem test_answerDiscard : after .answerDiscard
    (let s := station 3 .idle
     { s with line := { s.line with answerSlot := some { item := 1, argument := 0, discard := 0 } } })
    (fun t => (t.line.answerSlot, t.line.answersDiscarded)) = some (none, 1) := by decide +kernel

/-! ### The hypotheses of the statements are met

One theorem for each statement that has hypotheses: concrete states and operands that meet those of each of its
clauses, at the ends of their ranges. -/

theorem witness_StepTakesFrontCommand :
    ({ station 3 .idle with pending := [.seizeEnd, .clash] } : State).pending = .seizeEnd :: [.clash]
    ∧ (station 3 .idle).pending = [] := by decide

theorem witness_AbsentEventsChangeNothing :
    let s := station 3 .idle
    s.resets.powerOn = false ∧ s.resets.pin = false ∧ s.sensor.exchange ≠ .configRead ∧ s.drive.rest ≠ .resting 0
    ∧ s.drive.state ≠ .dwell ∧ (station 3 .dwell).drive.dwellTimer ≠ some 0 ∧ s.loader.offlineCause = none
    ∧ (station 3 .offline).drive.blinkTimer ≠ some 0 ∧ s.sensor.sampleTimer ≠ some 0 ∧ s.sensor.exchange ≠ .readyWait ∧ s.sensor.exchange ≠ .shifting
    ∧ s.stride.stallTimer ≠ some 0 ∧ (station 3 .run).stride.stallTimer ≠ some 0 ∧ s.stride.retryPause ≠ some 0
    ∧ s.stride.coastWindow ≠ some 0 ∧ s.pace.running = false ∧ (station 4 .run).pace.position < 360
    ∧ s.drive.state ≠ .muster ∧ (station 3 .muster).orders.musterTimer ≠ some 0 ∧ s.halt.rawSense = s.halt.settledSense
    ∧ s.halt.differsFor ≠ 2 ∧ s.line.reportTimer ≠ some 0 ∧ s.line.transmitter = .released ∧ (s.line.lineState .a).quietTimer ≠ some 0
    ∧ (s.roster.recordOf 1).age.toNat ≤ s.config.staleAge ∧ (s.roster.recordOf 1).age.toNat ≤ s.config.lostTenths
    ∧ (∀ a, s.line.answerSlot = some a → a.discard ≠ 0) := by
  refine ⟨?_, ?_, ?_, ?_, ?_, ?_, ?_, ?_, ?_, ?_, ?_, ?_, ?_, ?_, ?_, ?_, ?_, ?_, ?_, ?_, ?_, ?_, ?_, ?_, ?_, ?_, fun _ h => nomatch h⟩
  all_goals decide +kernel

theorem witness_ResetsForceEveryBlock :
    (Instr.powerOnReset = .powerOnReset ∨ Instr.powerOnReset = .resetPinAssert)
    ∧ (Instr.resetPinAssert = .powerOnReset ∨ Instr.resetPinAssert = .resetPinAssert) := by decide

theorem witness_ResetEndBeginsConfigRead :
    State.reset.resets.powerOn = true ∧ State.reset.resets.pin = false
    ∧ ({ State.reset with resets := { powerOn := true, pin := true } } : State).resets.pin = true := by decide

/-- The checks of Table 12-2, each failing at the end of its range, and the first image that passes. -/
theorem witness_ConfigurationChecksDecide :
    startUp.DriveInv ∧ startUp.inReset = false ∧ startUp.loader.state = .reading
    ∧ startUp.sensor.exchange = .configRead
    ∧ (let verdict (image : List Byte) := after (.configReadComplete image false) startUp (fun t => t.loader.offlineCause)
       (image []).length = 32 ∧ verdict (image []) = some none
       ∧ verdict ((image []).set 30 0) = some (some .configCheck)
       ∧ verdict (image [(0, 3)]) = some (some .configCheck)
       ∧ verdict (image [(1, 32)]) = some (some .configRange)
       ∧ verdict (image [(29, 1)]) = some (some .configRange)
       ∧ verdict (image [(6, 3), (8, 60), (10, 200), (11, 4), (12, 0xB0), (13, 6)]) = some none
       ∧ verdict (image [(6, 3), (8, 60), (10, 200), (11, 4), (12, 0xB1), (13, 6)]) = some (some .configRange)
       ∧ verdict (image [(6, 3), (8, 60), (10, 100), (11, 4), (12, 0xB0), (13, 6)]) = some (some .configRange)
       ∧ verdict (image [(5, 6), (4, 2)]) = some (some .configRange)
       ∧ verdict (image [(5, 7), (4, 2)]) = some none
       ∧ verdict (image [(1, 2)]) = some (some .positionRange) ∧ verdict (image [(1, 3)]) = some none) :=
  ⟨startUp_drive, by decide +kernel⟩

theorem witness_ChecksFailedStaysOffline :
    startUp.inReset = false ∧ startUp.loader.state = .reading ∧ startUp.sensor.exchange = .configRead
    ∧ startUp.drive.state = .offline
    ∧ configFailure (ConfigRecord.ofBytes (image [(0, 3)])) (crcFieldOf (image [(0, 3)])) startUp.loader.own
        = some .configCheck := by decide +kernel

/-- A follower of four towers, and the pacer of three. -/
theorem witness_ChecksPassedEntersIdle :
    startUp.DriveInv ∧ startUp.RosterInv ∧ startUp.inReset = false ∧ startUp.loader.state = .reading
    ∧ startUp.sensor.exchange = .configRead
    ∧ configFailure (ConfigRecord.ofBytes (image [])) (crcFieldOf (image [])) startUp.loader.own = none
    ∧ configFailure (ConfigRecord.ofBytes (image [(1, 3)])) (crcFieldOf (image [(1, 3)])) startUp.loader.own = none :=
  ⟨startUp_drive, rosterInv_of _ (by decide +kernel), by decide +kernel⟩

/-- The record changed to level table D with S 160, H 400, X 1200, under a hysteresis code. -/
def tableD (code : Byte) : List (Nat × Byte) :=
  [(6, 3), (8, 160), (9, 1), (10, 144), (11, 4), (12, 176), (13, code)]

/-- The levels and the window size that the checks leave: tables A to D, D at both ends of Table 2-4, the four codes of
Table 2-1. -/
theorem test_levelsLoaded :
    (∀ x ∈ [([(6, 0), (14, 0)], [10, 40, 80, 150, 400], 1), ([(6, 1), (14, 1)], [20, 60, 120, 200, 500], 2),
        ([(6, 2), (14, 2)], [30, 100, 180, 300, 700], 4), (tableD 0 ++ [(14, 3)], [155, 160, 395, 400, 1200], 8),
        (tableD 15, [0, 160, 240, 400, 1200], 4)],
      after (.configReadComplete (image x.1) true) startUp (fun t =>
        ([t.governor.levels.stop, t.governor.levels.start, t.governor.levels.resume, t.governor.levels.hold,
          t.governor.levels.halt], t.governor.size, t.loader.state)) = some (x.2.1, x.2.2, .passed)) := by
  decide +kernel

/-- The same station with a lead beyond X. -/
def beyond (s : State) : State := { s with governor := { s.governor with window := [400], lead := some 400 } }

/-- A station in WAIT that rests, without and with the run request. -/
def waiting (request : Bool) : State :=
  { station 3 .wait with
    drive := { (station 3 .wait).drive with rest := .resting 0 }
    governor := { (station 3 .wait).governor with runRequest := request } }

theorem witness_RestEndSettles : (waiting true).DriveInv ∧ (waiting false).DriveInv
    ∧ (waiting true).leadBeyondHalt = false ∧ (waiting true).inReset = false ∧ (waiting true).drive.rest = .resting 0
    ∧ (waiting true).drive.state = .wait ∧ (waiting true).runRequest = true ∧ (waiting false).runRequest = false
    ∧ (∀ d, d = .dwell ∨ d = .muster → (beyond (station 3 d)).DriveInv ∧ (beyond (station 3 d)).leadBeyondHalt = true
      ∧ ({ beyond (station 3 d) with drive := { (station 3 d).drive with rest := .resting 0 } } : State).DriveInv) :=
  ⟨driveInv_of _ (by decide +kernel), driveInv_of _ (by decide +kernel), by decide +kernel, by decide +kernel,
   by decide +kernel, by decide +kernel, by decide +kernel, by decide +kernel, fun d h => by
    rcases h with rfl | rfl <;>
      exact ⟨driveInv_of _ (by decide +kernel), by decide +kernel, driveInv_of _ (by decide +kernel)⟩⟩

/-- The census of this station is complete: loop present, lead known, and every counted position on order 17. -/
def complete (s : State) : State :=
  withRecord (withRecord (withRecord (withRecord
    { s with halt := { s.halt with settledSense := true }
             governor := { s.governor with window := [30], lead := some 30 } }
    0 (heardAs .current 17)) 1 (heardAs .current 17)) 2 (heardAs .current 17)) 4 (heardAs .current 17)

theorem witness_DwellExpiryEntersMuster :
    (due (station 3 .dwell)).DriveInv ∧ (due (station 3 .dwell)).drive.state = .dwell
    ∧ (due (station 3 .dwell)).drive.dwellTimer = some 0 ∧ (due (station 3 .dwell)).censusBlocker = some .loop
    ∧ (complete (due (station 3 .dwell))).DriveInv ∧ (complete (due (station 3 .dwell))).censusBlocker = none :=
  ⟨driveInv_of _ (by decide +kernel), by decide, by decide, by decide +kernel, driveInv_of _ (by decide +kernel), by decide +kernel⟩

theorem witness_LampBlinksTheCause :
    let s : State := { station 3 .offline with drive := { (station 3 .offline).drive with blinkTimer := some 0 } }
    s.drive.state = .offline ∧ s.loader.offlineCause = some .positionConflict ∧ s.drive.blinkTimer = some 0 := by decide

theorem witness_LocalTimeTickCounts : (station 3 .run).inReset = false ∧ (station 3 .run).drive.rest = .rested
    ∧ (waiting true).drive.rest = .resting 0 := by decide

/-- Each line of Table 1-2 is reached. -/
theorem witness_OrderOfForceSettles :
    (station 3 .offline).settledState = .offline ∧ (station 3 .idle).settledState = .idle
    ∧ (station 3 .dwell).settledState = .dwell ∧ (station 3 .muster).settledState = .muster
    ∧ (station 3 .stalled).settledState = .stalled ∧ (station 3 .held).settledState = .held
    ∧ (station 3 .run).settledState = .run ∧ (station 3 .wait).settledState = .wait
    ∧ (station 3 .halted).settledState = .halted
    ∧ ({ station 3 .run with pending := [], drive := { (station 3 .run).drive with rest := .resting 3 } } : State).settledState
        = .wait := by decide +kernel

/-- Two stations, one about to leave RUN and one about to enter it, and one about to change direction. -/
theorem witness_OutputsChangeOnlyAsGiven :
    (∃ s t : State, s.DriveInv ∧ step s = .next t ∧ s.drive.state = .run ∧ t.drive.state ≠ .run
      ∧ t.drive.direction ≠ s.drive.direction)
    ∧ ∃ s t : State, s.DriveInv ∧ step s = .next t ∧ s.drive.state ≠ .run ∧ t.drive.state = .run :=
  ⟨⟨_, _, driveInv_of { station 3 .run with pending := [.runOrder (header 0 1 18) 1 60] } (by decide +kernel), rfl,
      by decide +kernel⟩,
   ⟨_, _, driveInv_of { waiting true with pending := [.contactorRestEnd] } (by decide +kernel), rfl,
      by decide +kernel⟩⟩

theorem witness_ExchangeBeginsAndShifts :
    (∀ x : ExchangeState, let s : State := { due (station 3 .run) with sensor :=
        { (due (station 3 .run)).sensor with exchange := x } }
      s.sensor.sampleTimer = some 0 ∧ s.sensor.exchange = x)
    ∧ (due (station 3 .run)).sensor.exchange = .resting :=
  ⟨fun _ => ⟨rfl, rfl⟩, by decide⟩

/-- An exchange that ends in OFFLINE, at rest, and with the next expiry pending. -/
theorem witness_ExchangeEndReleasesSelect :
    (shifting (station 3 .offline)).DriveInv ∧ (shifting (station 3 .run)).DriveInv
    ∧ (shifting (station 3 .run)).sensor.exchange = .shifting ∧ (shifting (station 3 .run)).sensor.pendingExpiry = false
    ∧ (shifting (station 3 .offline)).drive.state = .offline :=
  ⟨driveInv_of _ (by decide +kernel), driveInv_of _ (by decide +kernel), by decide⟩

/-- The ends of the range of a bend, the truncated mean, and the two levels of the hysteresis met exactly. -/
theorem witness_GoodSampleJoinsWindow :
    (shifting (station 3 .run)).DriveInv ∧ (shifting (station 3 .run)).sensor.exchange = .shifting
    ∧ (shifting (station 3 .run)).drive.state ≠ .offline
    ∧ -1500 ≤ (0xFA24 : BitVec 16).toInt ∧ (0x05DC : BitVec 16).toInt ≤ 1500
    ∧ after (.shiftComplete 0xA70028 false) (shifting (station 3 .wait)) (fun t => t.governor.runRequest) = some true
    ∧ after (.shiftComplete 0xA70027 false) (shifting (station 3 .wait)) (fun t => t.governor.runRequest) = some false
    ∧ after (.shiftComplete (0xA7#8 ++ (-30 : BitVec 16)) false) (shifting (station 3 .run))
        (fun t => (t.governor.lead, t.governor.runRequest)) = some (some 10, false)
    ∧ after (.shiftComplete (0xA7#8 ++ (-28 : BitVec 16)) false) (shifting (station 3 .run))
        (fun t => (t.governor.lead, t.governor.runRequest)) = some (some 11, true) :=
  ⟨driveInv_of _ (by decide +kernel), by decide +kernel⟩

/-- A lead at the halt level, one just below it, and a census that hears of a lead. -/
theorem witness_NewLeadDecidesDriveState :
    (shifting (station 3 .held)).DriveInv ∧ (shifting (station 3 .muster)).DriveInv
    ∧ (shifting (station 3 .held)).isPacer = false ∧ (shifting (station 3 .held)).isFollowing = true
    ∧ after (.shiftComplete (0xA7#8 ++ (400 : BitVec 16)) false) (shifting (station 3 .held))
        (fun t => (t.leadBeyondHalt, t.drive.state)) = some (true, .halted)
    ∧ after (.shiftComplete (0xA7#8 ++ (-399 : BitVec 16)) false) (shifting (station 3 .held))
        (fun t => (t.leadBeyondHalt, t.drive.state)) = some (false, .held)
    ∧ (shifting (station 3 .muster)).governor.lead = none
    ∧ (shifting (station 3 .run)).DriveInv
    ∧ after (.shiftComplete (0xA7#8 ++ (-1000 : BitVec 16)) false) (shifting (station 3 .run))
        (fun t => (t.drive.state, t.governor.runRequest)) = some (.halted, false)
    ∧ (shifting (station 3 .wait)).DriveInv ∧ (shifting (station 3 .wait)).drive.rest = .rested
    ∧ (let u := (shifting (station 3 .wait)).setGovernor ((station 3 .wait).governor.sample 400 .forward)
       u.misaligned = true ∧ u.governor.runRequest = true ∧ u.settledState = .run) :=
  ⟨driveInv_of _ (by decide +kernel), driveInv_of _ (by decide +kernel), by decide +kernel, by decide +kernel,
   by decide +kernel, by decide +kernel, by decide +kernel, driveInv_of _ (by decide +kernel), by decide +kernel,
   driveInv_of _ (by decide +kernel), by decide, by decide +kernel⟩

/-- The four failures; the limit of RETRY mode met, and one short of it. -/
theorem witness_FailedExchangeActsByMode :
    (shifting (station 3 .run)).DriveInv ∧ (shifting (station 3 .run)).isPacer = false
    ∧ (0x000010 : BitVec 24).extractLsb' 16 8 ≠ config.signature
    ∧ ((0xA705DD : BitVec 24).extractLsb' 0 16).toInt = 1501 ∧ ((0xA7FA23 : BitVec 24).extractLsb' 0 16).toInt = -1501
    ∧ ([3, 4].map fun n => after (.short false)
        { shifting (station 3 .run) with sensor := { (shifting (station 3 .run)).sensor with consecutiveFailures := n } }
        (fun t => t.drive.state)) = [some .wait, some .halted]
    ∧ after (.short false) { shifting (station 3 .run) with claim :=
        { ClaimUnit.reset with reasons := { ReasonSet.empty with lag := true }, reach := 1 } }
        (fun t => (t.claim.reasons.lag, t.claim.reasons.sensor)) = some (false, true) :=
  ⟨driveInv_of _ (by decide +kernel), by decide +kernel⟩

theorem witness_InputChangesRestartMeasurement :
    (station 3 .run).stride.wheelHigh ≠ true ∧ (station 3 .run).stride.wheelHigh = false
    ∧ (station 3 .run).halt.rawSense ≠ true ∧ (station 3 .run).halt.rawSense = false ∧ (station 3 .run).inReset = false
    ∧ State.reset.inReset = true ∧ startUp.stride.filterAsserted = true
    ∧ (station 3 .run).stride.filterAsserted = false
    ∧ ({ (station 3 .wait).stride with coastWindow := some 0 } : StrideMonitor).coastWindow = some 0 := by decide

theorem witness_WheelPulseStepsStrideCount :
    startUp.stride.filterAsserted = true ∧ (station 3 .run).inReset = false
    ∧ (station 3 .run).stride.filterAsserted = false ∧ (station 3 .offline).drive.state = .offline := by decide

/-- A pulse of each class: stall clear, coast inside the allowance, creep under the limit and creep at the limit. -/
theorem witness_PulseByContactorView :
    (station 3 .run).DriveInv ∧ (station 3 .wait).DriveInv ∧ (station 3 .run).active = true
    ∧ (station 3 .run).stride.contactorOn = true ∧ (station 3 .wait).stride.contactorOn = false
    ∧ (station 3 .wait).config.stalling ≠ .off
    ∧ (let at' (coast : Nat) (creep : BitVec 8) : State := { station 3 .wait with stride :=
          { (station 3 .wait).stride with coastWindow := some 9, coastCount := coast, creepCount := creep } }
       ([(1, 0), (2, 2), (2, 3)].map fun x => after .wheelPulse (at' x.1 x.2)
          (fun t => (t.drive.state, t.stride.coastCount, t.stride.creepCount)))
        = [some (.wait, 2, 0), some (.wait, 2, 3), some (.halted, 2, 4)]) :=
  ⟨(station_drive _).1, (station_drive _).1, by decide +kernel⟩

/-- The last stall within the retry limit, and the one past it. -/
theorem witness_StallTaken :
    (due (station 3 .run)).DriveInv ∧ (due (station 3 .run)).ClaimInv ∧ (due (station 3 .run)).leadBeyondHalt = false
    ∧ (due (station 3 .run)).stride.stallTimer = some 0 ∧ (station 3 .run).stride.stallTimer ≠ some 0
    ∧ (due (station 3 .run)).config.stalling = .retry
    ∧ ([2, 3].map fun n => after .stallTimerExpiry
        { due (station 3 .run) with stride := { (due (station 3 .run)).stride with consecutiveStalls := n } }
        (fun t => t.drive.state)) = [some .stalled, some .halted] :=
  ⟨driveInv_of _ (by decide +kernel), claimInv_of _ (by decide +kernel), by decide +kernel⟩

theorem witness_RetryPauseEndSettles :
    (due (station 3 .stalled)).DriveInv ∧ (due (station 3 .stalled)).leadBeyondHalt = false
    ∧ (due (station 3 .stalled)).stride.retryPause = some 0 ∧ (due (station 3 .stalled)).drive.state = .stalled
    ∧ ({ station 3 .wait with stride := { (station 3 .wait).stride with retryPause := some 0 } } : State).DriveInv :=
  ⟨driveInv_of _ (by decide +kernel), by decide, by decide, by decide, driveInv_of _ (by decide +kernel)⟩

/-- ON lengths at the ends of the period: 0, 1, one less than the period, and the whole period; a position one short of
the ON length and one at it, and the same at the period. -/
theorem witness_PaceBoundaries :
    (station 4 .run).DriveInv ∧ (station 4 .run).isPacer = true ∧ (station 4 .run).leadBeyondHalt = false
    ∧ (station 4 .run).pace.running = true
    ∧ ([0, 1, 599, 600].map fun n => after .endOfOnPart
        { station 4 .run with pace := { (station 4 .run).pace with onLength := n, position := n } }
        (fun t => t.drive.state)) = [some .run, some .wait, some .wait, some .run]
    ∧ ([359, 360].map fun n => after .endOfOnPart
        { station 4 .run with pace := { (station 4 .run).pace with position := n } } (fun t => t.drive.state))
      = [some .run, some .wait]
    ∧ ([599, 600].map fun n => after .endOfPeriod
        { station 4 .wait with pace := { (station 4 .wait).pace with position := n } } (fun t => t.drive.state))
      = [some .wait, some .run] :=
  ⟨(station_drive _).2, by decide +kernel⟩

theorem witness_GoodFrameRefreshesLine :
    frameOf (.freeFrame (header 1 1 17)) = some (header 1 1 17, .free) ∧ startUp.loader.state = .reading
    ∧ (station 3 .idle).collecting = true ∧ (station 3 .offline).active = false
    ∧ (station 3 .offline).Hears (header 1 1 17)
    ∧ (let s := sendingStatus (station 3 .idle)
       s.line.readsBack .a = true ∧ s.collecting = true ∧ (s.line.lineState .a).receiver ≠ .discarding)
    ∧ ({ LineState.reset with receiver := .discarding } : LineState).receiver = .discarding :=
  ⟨rfl, rfl, by decide, by decide, hears_of _ _ (by decide +kernel), by decide +kernel, rfl⟩

theorem witness_OwnPositionIsAConflict :
    frameOf (.freeFrame (header 3 1 17)) = some (header 3 1 17, .free) ∧ (station 3 .run).Hears (header 3 1 17)
    ∧ (station 3 .run).active = true ∧ (header 3 1 17).source = (station 3 .run).own :=
  ⟨rfl, hears_of _ _ (by decide +kernel), by decide, by decide⟩

/-- The first position above N. -/
theorem witness_StrangersAreCounted :
    frameOf (.freeFrame (header 5 1 17)) = some (header 5 1 17, .free) ∧ (station 3 .run).Hears (header 5 1 17)
    ∧ (station 3 .run).active = true ∧ (header 5 1 17).source ≠ (station 3 .run).own
    ∧ (station 3 .run).towers < (header 5 1 17).source.toNat :=
  ⟨rfl, hears_of _ _ (by decide +kernel), by decide +kernel⟩

/-- Each kind from the source Table 10-3 does not list for it. -/
theorem witness_RefusedFramesAreCounted :
    frameOf (.freeFrame (header 0 1 17)) = some (header 0 1 17, .free)
    ∧ frameOf (.stopOrder (header 1 1 17) 0 0) = some (header 1 1 17, .order)
    ∧ (station 3 .run).Hears (header 0 1 17) ∧ (station 3 .run).Hears (header 1 1 17) ∧ (station 3 .run).active = true
    ∧ (header 0 1 17).source ≠ (station 3 .run).own ∧ (header 1 1 17).source.toNat ≤ (station 3 .run).towers
    ∧ ¬(header 1 1 17).source = 0 ∧ ¬(header 0 1 17).source ≠ 0 :=
  ⟨rfl, rfl, hears_of _ _ (by decide +kernel), hears_of _ _ (by decide +kernel), by decide +kernel⟩

/-- A duplicate, a gap from a CURRENT record, and a frame after an absence. -/
theorem witness_SequenceIsCompared :
    let s := withRecord (station 3 .run) 1 (heardAs .current 17)
    frameOf (.freeFrame (header 1 9 17)) = some (header 1 9 17, .free) ∧ s.Hears (header 1 9 17)
    ∧ s.active = true ∧ (header 1 9 17).source ≠ s.own ∧ (header 1 9 17).source.toNat ≤ s.towers
    ∧ FrameClass.free.acceptsFrom 1 = true ∧ (s.roster.recordOf 1).presence = .current
    ∧ (s.roster.recordOf 1).lastSeq = some 9
    ∧ after (.freeFrame (header 1 9 17)) s (fun t => t.roster.duplicateTotal) = some 1
    ∧ after (.freeFrame (header 1 8 17)) s (fun t => (t.roster.recordOf 1).missed) = some 254
    ∧ (station 3 .run).Accepts (header 1 9 17) .free :=
  ⟨rfl, hears_of _ _ (by decide +kernel), by decide, by decide +kernel, by decide +kernel, by decide, by decide +kernel,
   by decide +kernel, by decide +kernel, by decide +kernel, station_accepts _ (by decide) _ _ _ _ (by decide) (by decide)⟩

theorem witness_AcceptedFrameUpdatesRecord :
    frameOf (.statusFrame (header 1 1 17) (body 5 0 0)) = some (header 1 1 17, .status)
    ∧ (station 3 .run).Accepts (header 1 1 17) .status ∧ (station 3 .run).Accepts (header 1 1 17) .answer :=
  ⟨rfl, station_accepts _ (by decide) _ _ _ _ (by decide) (by decide),
   station_accepts _ (by decide) _ _ _ _ (by decide) (by decide)⟩

/-- Records older than both limits, and one at the stale age and one at the lost limit. -/
theorem witness_PresenceLimits :
    let s (d : DriveState) := withRecord (station 3 d) 1 (aged (heardAs .current 17) 101)
    (s .run).DriveInv ∧ (s .run).RosterInv ∧ (s .run).active = true ∧ (1 : Position) ≠ (s .run).own
    ∧ ((s .run).roster.recordOf 1).expected = true ∧ ((s .run).roster.recordOf 1).presence = .current
    ∧ (s .run).drive.state.isUnderway = true ∧ (s .muster).orders.counting = true ∧ (s .muster).DriveInv
    ∧ (s .muster).RosterInv ∧ (s .idle).drive.state.isUnderway = false ∧ (s .halted).drive.state = .halted
    ∧ ((s .run).roster.recordOf 2).presence = .absent
    ∧ 3 * (10 + 5 * (s .run).config.reportCode.toNat) = 60 ∧ 10 * (s .run).config.lostLimit.toNat = 100
    ∧ ((s .run).roster.recordOf 1).age = 101 ∧ (aged (heardAs .current 17) 60).age.toNat = 60 :=
  ⟨driveInv_of _ (by decide +kernel), rosterInv_of _ (by decide +kernel), by decide, by decide, by decide +kernel,
   by decide +kernel, by decide, by decide, driveInv_of _ (by decide +kernel), rosterInv_of _ (by decide +kernel),
   by decide, by decide, by decide +kernel, by decide, by decide, by decide +kernel, by decide⟩

/-- Numbers at the two ends of "ahead" of 17, an order under an unset one, and one with an undefined direction. -/
theorem witness_OrderIsJudged :
    (station 3 .run).DriveInv ∧ (station 3 .run).Accepts (header 0 1 18) .order
    ∧ (station 3 .idle).DriveInv ∧ (station 3 .idle).Accepts (header 0 1 0) .order
    ∧ ([17, 18, 144, 145].map fun n => after (.stopOrder (header 0 1 n) 0 60) (station 3 .run)
        (fun t => (t.orders.number, t.orders.refused))) = [some (17, 1), some (18, 0), some (144, 0), some (17, 1)]
    ∧ after (.stopOrder (header 0 1 0) 1 101) (station 3 .idle) (fun t => (t.orders.unset, t.orders.pace))
        = some (false, 100)
    ∧ after (.stopOrder (header 0 1 18) 2 60) (station 3 .run) (fun t => t.orders.refused) = some 1 :=
  ⟨(station_drive _).1, station_accepts _ (by decide) _ _ _ _ (by decide) (by decide), (station_drive _).1,
   station_accepts _ (by decide) _ _ _ _ (by decide) (by decide), by decide +kernel⟩

theorem witness_StopAndClearLeadToIdle (d : DriveState) (hd : d ≠ .offline) :
    (station 3 d).DriveInv ∧ (station 3 d).Accepts (header 0 1 18) .order ∧ directionOfCode 1 = some .reverse
    ∧ ((station 3 d).afterHearing (header 0 1 18) id).numberAhead 18 = true :=
  ⟨(station_drive _).1, station_accepts _ hd _ _ _ _ (by decide) (by decide), by decide, by
    cases d <;> first | exact absurd rfl hd | decide +kernel⟩

/-- A lead at the halt level keeps the halt; one below it, or an unknown one, does not. -/
theorem witness_ClearDecidesTheHalt :
    let s (lead : Option Int) : State :=
      { station 3 .halted with governor := { (station 3 .halted).governor with lead := lead } }
    (s (some (-400))).DriveInv ∧ (s none).DriveInv ∧ (s none).Accepts (header 0 1 18) .order
    ∧ (s (some (-400))).Accepts (header 0 1 18) .order
    ∧ ((s none).afterHearing (header 0 1 18) id).numberAhead 18 = true
    ∧ ((s none).afterHearing (header 0 1 18) id).drive.state = .halted
    ∧ ([some 399, some (-400), none].map fun x => after (.clearOrder (header 0 1 18) 0 60) (s x) (fun t => t.drive.state))
      = [some .idle, some .halted, some .idle] :=
  ⟨driveInv_of _ (by decide +kernel), driveInv_of _ (by decide +kernel),
   accepts_of _ _ _ (hears_of _ _ (by decide +kernel)) (by decide +kernel),
   accepts_of _ _ _ (hears_of _ _ (by decide +kernel)) (by decide +kernel), by decide +kernel⟩

/-- Every state outside OFFLINE, in the direction of the output and in the other; a census that completes at once. -/
theorem witness_RunOrderByState :
    (∀ d : DriveState, d ≠ .offline → (station 3 d).DriveInv ∧ (station 3 d).Accepts (header 0 1 18) .order
      ∧ ((station 3 d).afterHearing (header 0 1 18) id).numberAhead 18 = true)
    ∧ directionOfCode 0 = some .forward ∧ directionOfCode 1 = some .reverse
    ∧ (station 4 .run).DriveInv ∧ (station 4 .run).Accepts (header 0 1 18) .order
    ∧ ([DriveState.idle, .dwell, .muster, .wait, .run, .held, .stalled, .halted].map fun d =>
        after (.runOrder (header 0 1 18) 0 60) (station 3 d) (fun t => t.drive.state))
      = [some .muster, some .dwell, some .muster, some .wait, some .run, some .wait, some .stalled, some .halted]
    ∧ ([DriveState.idle, .dwell, .muster, .wait, .run, .held, .stalled, .halted].map fun d =>
        after (.runOrder (header 0 1 18) 1 60) (station 3 d) (fun t => t.drive.state))
      = [some .dwell, some .dwell, some .dwell, some .dwell, some .dwell, some .dwell, some .dwell, some .halted] :=
  ⟨fun d hd => ⟨(station_drive d).1, station_accepts _ hd _ _ _ _ (by decide) (by decide), by
      cases d <;> first | exact absurd rfl hd | decide +kernel⟩,
   by decide, by decide, (station_drive _).2, accepts_of _ _ _ (hears_of _ _ (by decide +kernel)) (by decide +kernel),
   by decide +kernel, by decide +kernel⟩

/-- The panel's STATUS with its order unset, with a number not ahead, with an undefined code, and with a RUN. -/
theorem witness_PanelStatusCatchesUp :
    (station 3 .idle).DriveInv ∧ (station 3 .idle).TimerInv ∧ (station 3 .idle).Accepts (header 0 1 18) .status ∧ (header 0 1 18).source = 0
    ∧ (station 3 .halted).DriveInv ∧ (station 3 .halted).TimerInv ∧ (station 3 .halted).Accepts (header 0 1 18) .status
    ∧ (complete (station 3 .muster)).DriveInv ∧ (complete (station 3 .muster)).TimerInv
    ∧ (complete (station 3 .muster)).Accepts (header 0 1 17) .status
    ∧ ([station 3 .muster, complete (station 3 .muster)].map fun s =>
        let u := s.afterHearing (header 0 1 17) id
        (decide (u.drive.state = .muster), u.censusBlocker.isSome)) = [(true, true), (true, false)]
    ∧ (let panel (flags coded : Byte) : StatusBody := { body 1 0 0 with flags := flags, actionDirection := coded }
       ([(station 3 .idle, 3, 0x10, 18), (station 3 .run, 2, 0x10, 17), (station 3 .run, 2, 0x30, 18),
         (station 3 .run, 2, 0x02, 18), (station 3 .run, 2, 0x11, 18), (station 3 .idle, 2, 0x10, 18)].map
          fun x => after (.statusFrame (header 0 1 x.2.2.2) (panel x.2.1 x.2.2.1)) x.1
            (fun t => (t.drive.state, t.orders.number, t.orders.refused)))
        = [some (.idle, 0, 0), some (.run, 17, 0), some (.run, 17, 1), some (.run, 17, 1), some (.dwell, 18, 0),
           some (.halted, 18, 0)]) :=
  ⟨(station_drive _).1, (station_timed _).1, station_accepts _ (by decide) _ _ _ _ (by decide) (by decide), by decide,
   (station_drive _).1, (station_timed _).1, station_accepts _ (by decide) _ _ _ _ (by decide) (by decide),
   driveInv_of _ (by decide +kernel), timerInv_of _ (by decide +kernel),
   accepts_of _ _ _ (hears_of _ _ (by decide +kernel)) (by decide +kernel), by decide +kernel, by decide +kernel⟩

theorem witness_CensusAndItsEvaluation :
    (station 3 .muster).DriveInv ∧ (station 3 .muster).orders.counting = true
    ∧ (station 3 .muster).censusBlocker = some .loop ∧ (station 3 .run).orders.counting = false
    ∧ (complete (station 3 .muster)).DriveInv ∧ (complete (station 3 .muster)).censusBlocker = none
    ∧ ((withRecord (complete (station 3 .muster)) 2 (heardAs .stale 17)).censusBlocker) = some (.position 2)
    ∧ ((withRecord (complete (station 3 .muster)) 0 (heardAs .current 16)).censusBlocker) = some (.position 0) :=
  ⟨(station_drive _).1, by decide, by decide +kernel, by decide, driveInv_of _ (by decide +kernel), by decide +kernel,
   by decide +kernel, by decide +kernel⟩

theorem witness_MusterTimeoutHalts : (due (station 3 .muster)).DriveInv ∧ (due (station 3 .muster)).drive.state = .muster
    ∧ (due (station 3 .muster)).orders.musterTimer = some 0 := ⟨driveInv_of _ (by decide +kernel), by decide, by decide⟩

/-- A HOLD of tower 1 whose reach ends just before and just at this station, in RUN and in HALTED; a FREE with and
without a record. -/
theorem witness_HoldAndFreeFrames :
    (station 3 .run).DriveInv ∧ (station 3 .run).Accepts (header 1 1 17) .hold
    ∧ (station 3 .held).DriveInv ∧ (station 3 .held).Accepts (header 1 1 17) .free
    ∧ (let u := (station 3 .run).afterHearing (header 1 1 17) id
       u.orderInForce = some 17 ∧ u.misaligned = false ∧ u.drive.state.isUnderway = true)
    ∧ (∀ d, d = .dwell ∨ d = .muster → (beyond (station 3 d)).DriveInv
      ∧ (beyond (station 3 d)).Accepts (header 1 1 17) .hold
      ∧ (let u := (beyond (station 3 d)).afterHearing (header 1 1 17) id
         u.misaligned = false ∧ u.leadBeyondHalt = true ∧ u.drive.state.isUnderway = true)
      ∧ after (.holdFrame (header 1 1 17) 2 2) (beyond (station 3 d)) (fun t => (t.drive.state, t.holds.isEmpty))
        = some (d, false))
    ∧ ([(17, 1), (17, 2), (16, 2)].map fun x => after (.holdFrame (header 1 1 x.1) 2 x.2) (station 3 .run)
        (fun t => t.drive.state)) = [some .run, some .held, some .run]
    ∧ ([DriveState.run, .held].map fun d => after (.freeFrame (header 1 1 17)) (station 3 d)
        (fun t => (t.drive.state, t.holds.unmatchedFree))) = [some (.run, 1), some (.wait, 0)] :=
  ⟨(station_drive _).1, station_accepts _ (by decide) _ _ _ _ (by decide) (by decide), (station_drive _).1,
   station_accepts _ (by decide) _ _ _ _ (by decide) (by decide), by decide +kernel, fun d h => by
    rcases h with rfl | rfl <;>
      exact ⟨driveInv_of _ (by decide +kernel), accepts_of _ _ _ (hears_of _ _ (by decide +kernel)) (by decide +kernel),
        by decide +kernel, by decide +kernel⟩, by decide +kernel, by decide +kernel⟩

/-- A claim that covers the station and one that ends before it, in RUN and in HELD, an origin in HALTED, and in MUSTER
the last position a census waits for. -/
theorem witness_TowerStatusRestatesClaimAndOrigin :
    (∀ d : DriveState, d ≠ .offline → (station 3 d).DriveInv ∧ (station 3 d).TimerInv
      ∧ (station 3 d).Accepts (header 1 1 17) .status)
    ∧ (header 1 1 17).source ≠ 0
    ∧ (let b : StatusBody := { body 8 0 0 with origin := 1, cause := 10 }
       after (.statusFrame (header 1 1 17) b) (station 3 .halted)
         (fun t => (t.halt.record.origin, t.halt.record.remoteCause)) = some (some 1, some .restart))
    ∧ ([(DriveState.run, 1), (.run, 2), (.held, 1), (.held, 2)].map fun x =>
        after (.statusFrame (header 1 1 17) (body 5 4 x.2)) (station 3 x.1) (fun t => t.drive.state))
      = [some .run, some .held, some .wait, some .held]
    ∧ (let s := withRecord (complete (station 3 .muster)) 1 (heardAs .current 16)
       s.DriveInv ∧ s.TimerInv ∧ s.Accepts (header 1 1 17) .status ∧ s.censusBlocker = some (.position 1)
       ∧ after (.statusFrame (header 1 1 17) { body 3 0 0 with flags := 8 }) s (fun t => (t.drive.state, t.orders.counting))
         = some (.wait, false)) :=
  ⟨fun d hd => ⟨(station_drive d).1, (station_timed d).1, station_accepts _ hd _ _ _ _ (by decide) (by decide)⟩, by decide,
   by decide +kernel, by decide +kernel, driveInv_of _ (by decide +kernel), timerInv_of _ (by decide +kernel),
   accepts_of _ _ _ (hears_of _ _ (by decide +kernel)) (by decide +kernel), by decide +kernel, by decide +kernel⟩

/-- A lead beyond X in DWELL and in MUSTER, where the census is blocked, and one with which a census completes. -/
theorem witness_TowerStatus_beyond :
    (∀ d, d = .dwell ∨ d = .muster → (beyond (station 3 d)).DriveInv ∧ (beyond (station 3 d)).TimerInv
      ∧ (beyond (station 3 d)).Accepts (header 1 1 17) .status
      ∧ after (.statusFrame (header 1 1 17) (body 3 4 2)) (beyond (station 3 d))
          (fun t => (t.drive.state, t.holds.isEmpty)) = some (d, false))
    ∧ (let s := beyond (withRecord (complete (station 3 .muster)) 1 (heardAs .current 16))
       s.DriveInv ∧ s.TimerInv ∧ s.Accepts (header 1 1 17) .status
       ∧ after (.statusFrame (header 1 1 17) (body 3 4 2)) s (fun t => (t.drive.state, t.holds.isEmpty))
         = some (.halted, true)) :=
  ⟨fun d h => by
    rcases h with rfl | rfl <;>
      exact ⟨driveInv_of _ (by decide +kernel), timerInv_of _ (by decide +kernel),
        accepts_of _ _ _ (hears_of _ _ (by decide +kernel)) (by decide +kernel), by decide +kernel⟩,
   driveInv_of _ (by decide +kernel), timerInv_of _ (by decide +kernel),
   accepts_of _ _ _ (hears_of _ _ (by decide +kernel)) (by decide +kernel), by decide +kernel⟩

theorem witness_ClaimSlotFollowsClaim :
    (station 3 .run).claim.reasons.put .lag false = (station 3 .run).claim.reasons
    ∧ (station 3 .run).claim.reasons.put .stall true ≠ (station 3 .run).claim.reasons
    ∧ (let s : State := { station 3 .run with claim :=
          { reasons := { ReasonSet.empty with lag := true }, reach := 1, announced := true } }
       (s.reportReason .lag false).line.claimSlot = some .free
       ∧ (State.reportReason { s with claim := { s.claim with announced := false } } .lag false).line.claimSlot
          = none) := by decide +kernel

/-- Each cause in a state where it latches, and one that does nothing. -/
theorem witness_HaltCausesAct :
    (let s (newer : Option AnswerRequest) : State := { station 3 .run with line := { (station 3 .run).line with
        lineA := { LineState.reset with receiver := .collecting, characters := [0xB4] }
        transmitter := .sending ((station 3 .run).buildFrame (.answer { item := 1, argument := 0, discard := 0 }))
        answerSlot := newer, answerClashes := 2 } }
     ([none, some { item := 2, argument := 0, discard := 9 }].map fun a =>
        let t := (s a).raiseHalt .stall (some 3)
        (t.line.answerSlot.map (fun b => (b.item, b.discard)), t.line.answerClashes, t.line.lineA.receiver))
       = [(some (1, 0), 2, .discarding), (some (2, 9), 0, .discarding)]) ∧
    (station 3 .held).isFollowing = true ∧ (station 3 .run).drive.state = .run
    ∧ (station 3 .muster).drive.state = .muster ∧ (station 3 .idle).drive.state = .idle
    ∧ (∀ d : DriveState, (station 3 d).drive.runOutput = decide ((station 3 d).drive.state = .run))
    ∧ (station 3 .halted).drive.state = .halted ∧ (station 3 .idle).drive.state.isUnderway = false :=
  ⟨by decide +kernel, by decide, by decide, by decide, by decide, fun d => by cases d <;> rfl, by decide, by decide⟩

theorem witness_LoopSenseSettles (d : DriveState) :
    let s (sense : Bool) : State := { station 3 d with halt :=
      { (station 3 d).halt with settledSense := sense, rawSense := !sense, differsFor := 2 } }
    (s true).DriveInv ∧ (s false).DriveInv ∧ (∀ b, (s b).halt.rawSense ≠ (s b).halt.settledSense)
    ∧ (s true).halt.differsFor = 2 ∧ (s true).inReset = false ∧ State.reset.inReset = true
    ∧ (s true).halt.settledSense = true ∧ (s true).active = decide (d ≠ .offline) := by
  cases d <;>
    exact ⟨driveInv_of _ (by decide +kernel), driveInv_of _ (by decide +kernel), by decide, by decide, by decide, by decide,
      by decide, by decide⟩

/-- A glitch, a dominant stop bit, the 24th character and the 25th. -/
theorem witness_CharacterIsTaken :
    startUp.collecting = false ∧ (station 3 .idle).collecting = true
    ∧ (let c (b : BitVec 10) : CharacterSamples := { seventh := b, eighth := b, ninth := b }
       let s (n : Nat) : State := { station 3 .idle with line := { (station 3 .idle).line with lineA :=
          { LineState.reset with receiver := .collecting, characters := List.replicate n 0xB4 } } }
       ([(5, 0x369), (5, 0x168), (23, 0x368), (24, 0x368)].map fun x =>
          after (.characterReceived .a (c x.2)) (s x.1) (fun t =>
            (t.line.lineA.characters.length, t.line.lineA.counters.framing, t.line.lineA.counters.format)))
        = [some (5, 0, 0), some (0, 1, 0), some (24, 0, 0), some (0, 0, 1)]) := by decide +kernel

/-- A station whose line A has a frame in collection. -/
def collected (receiver : ReceiverState) (own : Bool) (frame : List Byte) : State :=
  { station 3 .idle with line := { (station 3 .idle).line with
      lineA := { LineState.reset with receiver := receiver, characters := frame, ownFrame := own } } }

/-- The receiver of line A and its three counts of failed frames. -/
def receiverA (t : State) : ReceiverState × List (BitVec 16) :=
  (t.line.lineA.receiver, [t.line.lineA.counters.framing, t.line.lineA.counters.format, t.line.lineA.counters.crcBad])

/-- The own frame, and one that fails each check. -/
def failing : List (Bool × List Byte) :=
  [(true, [1]), (false, [0xB5]), (false, [0xB4, 1]), (false, (assembleFrame 3 1 0 17 []).set 5 0)]

/-- A good frame of each kind, an ORDER of each action among them. -/
def goodFrames : List (List Byte) :=
  [assembleFrame 0 1 7 17 [3, 8, 0, 0, 0, 0, 0, 0, 0, 0xFF, 0x10, 60], assembleFrame 1 0 7 17 [0, 0, 60],
   assembleFrame 1 0 7 17 [1, 0, 60], assembleFrame 1 0 7 17 [2, 0, 60], assembleFrame 1 0 7 17 [3, 0, 60],
   assembleFrame 2 1 7 17 [1, 3], assembleFrame 3 1 7 17 [], assembleFrame 4 0 7 17 [3, 7, 0],
   assembleFrame 5 1 7 17 [1, 0, 0, 0, 0, 0, 0, 0, 0, 0]]

/-- Receivers in each state at the end of a collection: each failing frame, and a good one. -/
theorem witness_FrameChecksDecide :
    (∀ r own frame, (collected r own frame).collecting = true)
    ∧ (failing.map fun x => (checkFrame x.2).isSome) = [true, true, true, true]
    ∧ ([[0xB4], [0xB5], [0xB4, 0xB4], [0xB5, 0xB4]].map checkFrame)
      = [some .format, some .framing, some .format, some .framing]
    ∧ (failing.map fun x => after (.frameCheckFailed .a) (collected .collecting x.1 x.2) receiverA)
      = [some (.idle, [0, 0, 0]), some (.idle, [1, 0, 0]), some (.idle, [0, 1, 0]), some (.idle, [0, 0, 1])]
    ∧ after (.frameCheckFailed .a) (collected .collecting false (assembleFrame 3 1 0 17 [])) receiverA
      = some (.collecting, [0, 0, 0])
    ∧ (goodFrames.map checkFrame) = List.replicate 9 none
    ∧ (goodFrames.map fun f => ((f.getD 1 0).extractLsb' 5 3).toNat) = [0, 1, 1, 1, 1, 2, 3, 4, 5] :=
  ⟨fun _ _ _ => rfl, by decide +kernel, by decide +kernel, by decide +kernel, by decide +kernel, by decide +kernel,
   by decide +kernel⟩

/-- The line's idle time judges a collected frame (R149): a failing one is counted. -/
theorem test_receiverIdle_failing :
    (failing.map fun x => after (.receiverIdle .a) (collected .collecting x.1 x.2) receiverA)
    = [some (.idle, [0, 0, 0]), some (.idle, [1, 0, 0]), some (.idle, [0, 1, 0]), some (.idle, [0, 0, 1])] := by
  decide +kernel

/-- A good one is taken: counted at the line, by its source's record, and by the order unit. -/
theorem test_receiverIdle_good :
    (goodFrames.map fun f => after (.receiverIdle .a) (collected .collecting false f) (fun t =>
      (t.line.lineA.counters.good, (t.roster.recordOf 0).accepted + (t.roster.recordOf 1).accepted, t.orders.unset,
        t.orders.refused)))
    = [some (1, 1, true, 0), some (1, 1, false, 0), some (1, 1, false, 0), some (1, 1, false, 0), some (1, 1, true, 1),
       some (1, 1, true, 0), some (1, 1, true, 0), some (1, 1, true, 0), some (1, 1, true, 0)] := by decide +kernel

theorem witness_QuietTimerExpires :
    let y : LineState := { LineState.reset with alive := true, quietTimer := some 0 }
    let s : State := { station 3 .idle with line := { (station 3 .idle).line with lineA := y, lineB := y } }
    (s.line.lineState .a).quietTimer = some 0 ∧ (s.line.lineState .b).quietTimer = some 0 ∧ s.line.sendLine = .a ∧ (s.line.lineState .b).alive = true
    ∧ s.config.alternateLine = 1 ∧ s.loader.state = .passed ∧ (∃ f, (sendingStatus s).line.transmitter = .sending f)
    ∧ after (.quietTimerExpiry .a) (sendingStatus s) (fun t => (t.line.sendLine, t.line.changeWaiting)) = some (.a, true)
    ∧ after (.quietTimerExpiry .b) s (fun t => (t.line.sendLine, t.line.lineB.alive)) = some (.a, false) :=
  ⟨by decide, by decide, by decide, by decide, by decide, by decide, ⟨_, rfl⟩, by decide +kernel, by decide +kernel⟩

theorem witness_SeizeIsDetected :
    (station 3 .run).DriveInv ∧ (station 3 .halted).DriveInv ∧ (station 3 .run).collecting = true
    ∧ ((station 3 .run).line.lineState .b).armed = true ∧ startUp.collecting = false
    ∧ (station 3 .run).active = true ∧ (station 3 .run).drive.state.isUnderway = true
    ∧ (station 3 .offline).active = false ∧ (station 3 .halted).active = true :=
  ⟨(station_drive _).1, (station_drive _).1, by decide⟩

/-- The gaps of a claim frame, an ANSWER and a STATUS at position 3, without and with the yield bias. -/
theorem witness_TransmissionStarts :
    let slots (c : Option ClaimFrame) (a : Option AnswerRequest) (bias : Bool) : State :=
      { station 3 .idle with line := { (station 3 .idle).line with
          claimSlot := c, answerSlot := a, statusSlot := true, yieldBias := bias } }
    let clashed (s : State) : State := { s with line := { s.line with gapFromClash := true } }
    let a : AnswerRequest := { item := 7, argument := 0, discard := 20 }
    (slots none none false).active = true ∧ (slots none none false).line.transmitter = .released
    ∧ ([(some .hold, some a, false, 5), (some .hold, some a, false, 6), (none, some a, false, 6), (none, none, false, 38),
        (none, none, false, 39), (none, none, true, 106), (none, none, true, 107)].map fun x =>
          after (.transmissionStart ⟨x.2.2.2, 0⟩) (slots x.1 x.2.1 x.2.2.1) (fun t =>
            (decide (t.line.transmitter = .released), t.line.claimSlot.isSome, t.line.answerSlot.isSome, t.line.statusSlot)))
      = [some (true, true, true, true), some (false, false, true, true), some (false, false, false, true),
         some (true, false, false, true), some (false, false, false, false), some (true, false, false, true),
         some (false, false, false, false)]
    ∧ ([(900, 38), (38, 900), (39, 39)].map fun x => after (.transmissionStart ⟨x.1, x.2⟩) (clashed (slots none none false))
          (fun t => (decide (t.line.transmitter = .released), t.line.gapFromClash)))
      = [some (true, true), some (true, true), some (false, false)]
    ∧ (station 3 .idle).line.statusSlot = false := by decide +kernel

theorem witness_TransmissionCompletes :
    (sendingStatus (station 3 .idle)).line.transmitter = .sending ((station 3 .idle).buildFrame .status)
    ∧ (let s (k : FrameKind) : State := { station 3 .run with line := { (station 3 .run).line with
          transmitter := .sending ((station 3 .run).buildFrame k), claimClashes := 2 } }
       ([FrameKind.claim .hold, .claim .free, .answer { item := 1, argument := 0, discard := 3 }].map fun k =>
          after .transmissionComplete (s k) (fun t => (t.claim.announced, t.line.claimClashes)))
        = [some (true, 0), some (false, 0), some (false, 2)]) := by decide +kernel

/-- The second and third clash of a slot, the seventh and eighth in a row, and an ANSWER out of its discard time. -/
theorem witness_ClashCountsAndReturns :
    let s (k : FrameKind) (n c : Nat) : State := { station 3 .run with line := { (station 3 .run).line with
      transmitter := .sending ((station 3 .run).buildFrame k), statusClashes := n, consecutiveClashes := c } }
    (s .status 0 0).DriveInv
    ∧ (s .status 0 0).line.transmitter = .sending ((station 3 .run).buildFrame .status)
    ∧ ([(1, 1), (2, 2), (0, 6), (0, 7)].map fun x => after .clash (s .status x.1 x.2)
        (fun t => (t.line.sendLine, t.drive.state))) = [some (.a, .run), some (.b, .run), some (.a, .run), some (.a, .offline)]
    ∧ ([0, 1].map fun d => after .clash (s (.answer { item := 1, argument := 0, discard := d }) 0 0)
        (fun t => (t.line.answersDiscarded, t.line.answerSlot.isSome, t.line.gapFromClash)))
      = [some (1, false, true), some (0, true, true)] :=
  ⟨driveInv_of _ (by decide +kernel), by decide +kernel⟩

theorem witness_InterfaceTimers :
    (due (station 3 .run)).line.reportTimer = some 0
    ∧ (let s (discard : Nat) : State := { station 3 .run with line := { (station 3 .run).line with
          answerSlot := some { item := 1, argument := 0, discard := discard } } }
       [0, 1].map (fun n => after .answerDiscard (s n) (fun t => (t.line.answerSlot.isSome, t.line.answersDiscarded)))
        = [some (false, 1), some (true, 0)])
    ∧ (let s (x : Transmitter) : State := { station 3 .run with line := { (station 3 .run).line with transmitter := x } }
       (s .seizing).line.transmitter = .seizing ∧ (∀ a, (s .seizing).line.answerSlot = some a → a.discard ≠ 0)
       ∧ ∃ f, (sendingStatus (s .released)).line.transmitter = .sending f) :=
  ⟨by decide, by decide +kernel, rfl, (fun _ h => by cases h), ⟨_, rfl⟩⟩

theorem witness_AsksQueueAnAnswer :
    askOf (.rosterView (header 0 1 17) 3 32) = some (header 0 1 17, 3, 2, 32)
    ∧ (station 3 .run).Accepts (header 0 1 17) .ask
    ∧ (3 : Byte) = ((station 3 .run).afterHearing (header 0 1 17) id).own.setWidth 8 :=
  ⟨rfl, station_accepts _ (by decide) _ _ _ _ (by decide) (by decide), by decide +kernel⟩

theorem witness_BodiesAsTheTables :
    (station 3 .run).holds.recordOf 31 = none ∧ (station 3 .held).holds.recordOf 1 = some holdRecord
    ∧ ((station 3 .held).answerData 6 1 = [1, 2, 3, 17, 0, 0, 0, 0])
    ∧ ([(0, 0), (10, 0), (2, 33), (3, 2), (6, 32), (9, 2)].map fun x => (station 3 .held).answerData x.1 x.2)
      = List.replicate 6 (List.replicate 8 0xFF) := by decide +kernel

theorem witness_ConfigRecordAndBytesAgree : (image []).length = 32 ∧ (ConfigRecord.ofBytes (image [])).toBytes = record := by
  decide +kernel

theorem witness_EveryStepKeepsTheTimers :
    let s (d : DriveState) : State := { due (station 3 d) with pending := [.stallTimerExpiry] }
    let reading : State := { startUp with pending := [.configReadComplete (image []) true] }
    (s .run).DriveInv ∧ (s .run).TimerInv ∧ (s .run).PortInv ∧ (∃ t, step (s .run) = .next t)
    ∧ reading.DriveInv ∧ reading.TimerInv ∧ reading.PortInv
    ∧ after (.configReadComplete (image []) true) reading (fun t => (t.drive.state, t.sensor.select1))
      = some (.idle, false)
    ∧ (shifting (station 3 .run)).PortInv ∧ ({ station 4 .wait with pending := [.endOfPeriod] } : State).TimerInv :=
  ⟨driveInv_of _ (by decide +kernel), timerInv_of _ (by decide +kernel), portInv_of _ (by decide +kernel), ⟨_, rfl⟩,
   driveInv_of _ (by decide +kernel), timerInv_of _ (by decide +kernel), portInv_of _ (by decide +kernel),
   by decide +kernel, portInv_of _ (by decide +kernel), timerInv_of _ (by decide +kernel)⟩

/-- A step of a station that has every standing fact. -/
theorem witness_EveryStepKeeps :
    let s (d : DriveState) : State := { station 3 d with pending := [.localTimeTick] }
    (s .run).DriveInv ∧ (s .run).LeadInv ∧ (s .run).RosterInv ∧ (s .held).HoldInv ∧ (s .run).ClaimInv
    ∧ (s .run).governor.lead = some 50 ∧ ∃ t, step (s .run) = .next t :=
  ⟨driveInv_of _ (by decide +kernel), leadInv_of _ (by decide +kernel), rosterInv_of _ (by decide +kernel),
   holdInv_of _ (by decide +kernel), claimInv_of _ (by decide +kernel), by decide, ⟨_, rfl⟩⟩

end Sys2Proof.Tests
end

section
/-! Proofs of the span roster's statements on strangers (R107) and on the sequence of a frame (R109): the two tests of
Table 7-2 as equations of `State.receiveGood`, what `RosterRecord.heard` does to the counts, and the frame that is
accepted. -/

open Sys2Proof Sys2Proof.Machine

namespace Sys2Proof.Machine

/-! ### Table 7-2, test by test -/

/-- R107: the second test stops a frame from above N. -/
theorem receive_stranger {s : State} {h : Header} (hears : s.Hears h) (active : s.active = true)
    (other : h.source ≠ s.own) (above : s.towers < h.source.toNat) k fill deliver :
    s.receiveGood h k fill deliver = { s.noteGood h.line with roster :=
      { s.roster.put h.source { s.roster.recordOf h.source with
          accepted := satInc (s.roster.recordOf h.source).accepted } with
        strangerTotal := satInc s.roster.strangerTotal } } := by
  obtain ⟨roster, own, towers⟩ := noteGood_other s h.line
  rw [receive_hears hears, if_pos active, State.rosterTake, own, towers, roster, if_neg other, if_pos above]
  rfl

/-- R109: the fourth test stops a frame that repeats the last sequence of a CURRENT or STALE record. -/
theorem receive_duplicate {s : State} {h : Header} {k : FrameClass} (hears : s.Hears h) (active : s.active = true)
    (other : h.source ≠ s.own) (within : h.source.toNat ≤ s.towers) (listed : k.acceptsFrom h.source = true)
    (repeats : (s.roster.recordOf h.source).isDuplicate h.seq = true) fill deliver :
    s.receiveGood h k fill deliver = { s.noteGood h.line with roster :=
      { s.roster with duplicateTotal := satInc s.roster.duplicateTotal } } := by
  obtain ⟨roster, own, towers⟩ := noteGood_other s h.line
  rw [receive_hears hears, if_pos active, State.rosterTake, own, towers, roster, if_neg other,
    if_neg (Nat.not_lt.mpr within), if_neg (by simp [listed]), if_pos repeats]
  rfl

/-! ### The missed count -/

/-- A sum that saturates is the sum, held at the largest value of its width. -/
theorem satAdd_toNat {w : Nat} (x : BitVec w) (n : Nat) : (satAdd x n).toNat = min (x.toNat + n) (2 ^ w - 1) := by
  have room : 0 < 2 ^ w := Nat.two_pow_pos w
  unfold satAdd
  split
  case isTrue fits => rw [BitVec.toNat_ofNat, Nat.mod_eq_of_lt fits]; omega
  case isFalse exceeds => rw [BitVec.toNat_allOnes]; omega

/-- R109: a CURRENT or STALE record takes the gap into its missed count. -/
theorem RosterRecord.heard_missed_of_known {r : RosterRecord} {last : Byte}
    (known : r.presence = .current ∨ r.presence = .stale) (seen : r.lastSeq = some last) (seq : Byte) :
    (r.heard seq).missed = satAdd r.missed (sequenceGap seq last) := by
  simp [RosterRecord.heard, known, seen]

/-- R109: an ABSENT or LOST record takes no gap. -/
theorem RosterRecord.heard_missed_of_unknown {r : RosterRecord}
    (unknown : ¬(r.presence = .current ∨ r.presence = .stale)) (seq : Byte) : (r.heard seq).missed = r.missed := by
  simp [RosterRecord.heard, unknown]

/-! ### An accepted frame -/

/-- An accepted frame of any kind leaves the roster that R110 and R111 give, whatever block it is handed to: its
source's record is heard, and the STATUS fields filled in beside it leave the counts alone. -/
theorem exec_accepted_roster {s : State} {i : Instr} {h : Header} {k : FrameClass} (frame : frameOf i = some (h, k))
    (accepts : s.Accepts h k) : ∃ (t : State) (fill : RosterRecord → RosterRecord), exec i s = .next t
      ∧ t.roster = s.roster.put h.source (fill ((s.roster.recordOf h.source).heard h.seq))
      ∧ ∀ r : RosterRecord, (fill r).accepted = r.accepted ∧ (fill r).missed = r.missed := by
  obtain ⟨fill, deliver, run, keeps, status⟩ := exec_frameOf i h k frame s
  refine ⟨_, fill, run, ?_, ?_⟩
  · rw [receive_accepts accepts, (keeps _ State.SameOuter.loud _).roster, afterHearing_roster]
  · rcases status with ⟨b, -, rfl⟩ | ⟨rfl, -⟩ <;> exact fun r => ⟨rfl, rfl⟩

/-! ### The statements -/

/-- Settles O29: the second test, then the source's record read apart from the others. -/
theorem strangersAreCounted : Obligations.StrangersAreCounted := by
  intro s i h k frame hears active other above
  obtain ⟨fill, deliver, run⟩ := exec_frame i h k frame s
  rw [receive_stranger hears active other above] at run
  refine ⟨_, run, satInc_word _, ?own, ?others, rfl, rfl⟩
  case own => rw [← satInc_word]; exact (Roster.recordOf_put _ _ _ _).trans (if_pos rfl)
  case others => exact fun p ne => (Roster.recordOf_put _ _ _ _).trans (if_neg ne)

/-- Settles O31: a duplicate ends at the fourth test, and any other frame is accepted, so that its record is the one
`RosterRecord.heard` gives. -/
theorem sequenceIsCompared : Obligations.SequenceIsCompared := by
  intro s i h k frame hears active other within listed r known
  refine ⟨fun isKnown same => ?duplicate, fun fresh => ?accepted⟩
  case duplicate =>
    obtain ⟨fill, deliver, run⟩ := exec_frame i h k frame s
    have repeats : r.isDuplicate h.seq = true := decide_eq_true ⟨isKnown, same⟩
    rw [run, receive_duplicate hears active other within listed repeats, satInc_word]
  case accepted =>
    obtain ⟨t, fill, run, roster, keeps⟩ := exec_accepted_roster frame ⟨hears, active, other, within, listed, fresh⟩
    have record : t.roster.recordOf h.source = fill (r.heard h.seq) := by
      rw [roster, Roster.recordOf_put, if_pos rfl]
    obtain ⟨accepted, missed⟩ := keeps (r.heard h.seq)
    obtain ⟨-, -, -, counted, -⟩ := heard_eq r h.seq
    refine ⟨t, run, ?_, by rw [roster]; rfl, fun last isKnown seen => ?_, fun unknown => ?_⟩
    · rw [record, accepted, counted, satInc_word]
    · rw [record, missed, RosterRecord.heard_missed_of_known isKnown seen, satAdd_toNat]; rfl
    · rw [record, missed, RosterRecord.heard_missed_of_unknown unknown]

end Sys2Proof.Machine
end

section
/-! Proof of the statement on the judgement of an ORDER frame (R120): what each frame command runs, the two outcomes of
`State.takeOrder`, and the codes and numbers that lead to each. -/

open Sys2Proof Sys2Proof.Machine

namespace Sys2Proof.Machine

/-! ### The two outcomes at the Order Unit -/

/-- An ORDER frame of any action code, defined or not, is taken by the one operation. -/
theorem exec_order {i : Instr} {h : Header} {action direction pace : Byte}
    (frame : i = .stopOrder h direction pace ∧ action = 0 ∨ i = .runOrder h direction pace ∧ action = 1
      ∨ i = .clearOrder h direction pace ∧ action = 2 ∨ i = .orderUndefinedAction h action direction pace) (s : State) :
    exec i s = .next (s.receiveOrder h action direction pace) := by
  rcases frame with ⟨rfl, rfl⟩ | ⟨rfl, rfl⟩ | ⟨rfl, rfl⟩ | rfl <;> rfl

/-- R120: the refusal raises one count and changes nothing else. -/
theorem State.refuseOrder_eq (u : State) : u.refuseOrder = { u with orders := { u.orders with
    refused := if u.orders.refused = 255 then 255 else u.orders.refused + 1 } } := by
  rw [State.refuseOrder, satInc_byte]
  rfl

/-- The judgement of R120: both codes are defined and the number may be adopted. -/
def State.Adoptable (u : State) (number action direction : Byte) : Prop :=
  (∃ a, actionOfCode action = some a) ∧ (∃ d, directionOfCode direction = some d) ∧ u.numberAhead number = true

/-- The judgement in the codes of Table 11-4 and the difference of the numbers. -/
theorem State.adoptable_iff (u : State) (number action direction : Byte) :
    u.Adoptable number action direction ↔ action.toNat ≤ 2 ∧ direction.toNat ≤ 1 ∧ (u.orders.unset = true
      ∨ 1 ≤ (number - u.orders.number).toNat ∧ (number - u.orders.number).toNat ≤ 127) := by
  have actions : (∃ a, actionOfCode action = some a) ↔ action.toNat ≤ 2 := by
    rw [← Option.ne_none_iff_exists', ne_eq, action_of_undefined, not_not]
  have directions : (∃ d, directionOfCode direction = some d) ↔ direction.toNat ≤ 1 := by
    rw [← Option.ne_none_iff_exists', ne_eq, direction_of_undefined, not_not]
  rw [State.Adoptable, actions, directions, ahead_iff]

/-- R120: an order that fails the judgement is refused, whichever of its three parts fails. -/
theorem State.takeOrder_refuses {u : State} {number action direction : Byte}
    (fails : ¬u.Adoptable number action direction) (pace : Byte) :
    u.takeOrder number action direction pace = u.refuseOrder := by
  unfold State.takeOrder
  split
  case h_1 a d isAction isDirection =>
    exact if_neg fun isAhead => fails ⟨⟨a, isAction⟩, ⟨d, isDirection⟩, isAhead⟩
  case h_2 => rfl
  case h_3 => rfl

/-! ### The statement -/

/-- Settles O34: the frame reaches the Order Unit, and the judgement there holds, so that the order is adopted, or
fails, so that it is refused. -/
theorem orderIsJudged : Obligations.OrderIsJudged := by
  intro s i h action direction pace _ accepts frame u adopted
  have judged : u.Adoptable h.order action direction ↔ adopted := u.adoptable_iff h.order action direction
  refine ⟨_, exec_order frame s, fun fails => ?refused, fun holds => ?adopted⟩
  case refused =>
    rw [State.receiveOrder, receive_accepts accepts, State.takeOrder_refuses (mt judged.mp fails),
      State.refuseOrder_eq]
  case adopted =>
    obtain ⟨⟨a, isAction⟩, ⟨d, isDirection⟩, isAhead⟩ := judged.mpr holds
    rw [take_adopts accepts isDirection isAction isAhead]
    obtain ⟨unset, number, actionSet, directionSet, paceSet, refused⟩ :=
      adopt_fields u false h.order a d (min pace.toNat 100)
    obtain ⟨actionCode, -⟩ := action_of_code isAction
    obtain ⟨directionCode, -⟩ := direction_of_code isDirection
    exact ⟨unset, number, by rw [actionSet, actionCode], by rw [directionSet, directionCode], paceSet, refused⟩

end Sys2Proof.Machine
end

section
/-! Proof of the statement on the configuration checks (R170): what CONFIG_READ_COMPLETE leaves in the loader, and each
check of Table 12-2 in the numbers of Tables 12-1 and 2-4. -/

open Sys2Proof Sys2Proof.Machine

namespace Sys2Proof.Machine

/-! ### The loader at the end of the checks -/

/-- The configuration handed to the blocks, the first exchange and the settling leave the loader PASSED and otherwise as
it was. -/
@[simp] theorem State.checksPass_loader (s : State) (ready : Bool) :
    (s.checksPass ready).loader = { s.loader with state := .passed } := by
  have settles : ∀ u : State, u.settle.loader = u.loader := fun u => (State.SameOuter.quiet.settle u).loader
  have senses : (s.handOver.beginSensing ready).loader = s.handOver.loader := by
    unfold State.beginSensing
    split
    case isTrue => rfl
    case isFalse =>
      obtain ⟨port, begins⟩ := beginExchange_eq s.handOver ready
      rw [begins, State.setSensor_loader]
  rw [State.checksPass, settles, senses]
  rfl

/-- The two outcomes of the checks in the loader (R170): PASSED without a cause, or FAILED with the deciding one. -/
def Loader.Judged (l : Loader) : Option OfflineCause → Prop
  | none => l.state = .passed ∧ l.offlineCause = none
  | some cause => l.state = .failed ∧ l.offlineCause = some cause

/-- CONFIG_READ_COMPLETE takes the record into the loader, keeps the straps, and judges by the first check
that fails. -/
theorem exec_configReadComplete_judges {s : State} (noCause : s.loader.offlineCause = none)
    (noReset : s.inReset = false) (reading : s.loader.state = .reading) (exchange : s.sensor.exchange = .configRead)
    (image : List Byte) (ready : Bool) : ∃ t, exec (.configReadComplete image ready) s = .next t
      ∧ t.loader.config = ConfigRecord.ofBytes image ∧ t.loader.own = s.loader.own
      ∧ t.loader.Judged (configFailure (ConfigRecord.ofBytes image) (crcFieldOf image) s.loader.own) := by
  have run : exec (.configReadComplete image ready) s = execConfigReadComplete image ready s := rfl
  rw [run, execConfigReadComplete, if_pos ⟨noReset, reading, exchange⟩]
  simp only [State.setSensor_loader, State.setLoader_loader]
  cases configFailure (ConfigRecord.ofBytes image) (crcFieldOf image) s.loader.own with
  | some cause => exact ⟨_, rfl, rfl, rfl, rfl, rfl⟩
  | none => exact ⟨_, rfl, by simp, by simp, by simp [Loader.Judged, noCause]⟩

/-! ### The checks of Table 12-2, one by one -/

/-- Check 1: the CRC is taken over the first 30 bytes as they were read, and compared with the last two. -/
theorem crc_differs_iff {image : List Byte} (full : image.length = 32) :
    crcOf (ConfigRecord.ofBytes image).toBytes ≠ crcFieldOf image
      ↔ crcOf (image.take 30) ≠ image.getD 30 0 ++ image.getD 31 0 := by
  rw [toBytes_take image full, crcFieldOf]

theorem inRange_iff (b : Byte) (low high : Nat) : inRange b low high = true ↔ low ≤ b.toNat ∧ b.toNat ≤ high :=
  decide_eq_true_iff

/-- Check 3: some field lies outside its range of Table 12-1. -/
theorem ConfigRecord.fieldOutOfRange_iff (c : ConfigRecord) : (!c.fieldsInRange) = true ↔
    ¬(2 ≤ c.towers.toNat ∧ c.towers.toNat ≤ 31 ∧ c.lineRateCode.toNat ≤ 2 ∧ c.alternateLine.toNat ≤ 1
      ∧ c.reportCode.toNat ≤ 8 ∧ 5 ≤ c.lostLimit.toNat ∧ c.lostLimit.toNat ≤ 30 ∧ c.levelTable.toNat ≤ 3
      ∧ c.windowCode.toNat ≤ 3 ∧ 1 ≤ c.samplePeriod.toNat ∧ c.samplePeriod.toNat ≤ 10
      ∧ c.sensorMode.toNat ≤ 2 ∧ 1 ≤ c.signature.toNat ∧ c.signature.toNat ≤ 0xFE
      ∧ c.readyPolarity.toNat ≤ 1 ∧ 10 ≤ c.readyTimeout.toNat ∧ c.readyTimeout.toNat ≤ 100
      ∧ c.stallMode.toNat ≤ 2 ∧ 5 ≤ c.stallTime.toNat ∧ c.stallTime.toNat ≤ 120
      ∧ 5 ≤ c.retryPause.toNat ∧ c.retryPause.toNat ≤ 60 ∧ 1 ≤ c.retryLimit.toNat ∧ c.retryLimit.toNat ≤ 7
      ∧ c.coastAllowance.toNat ≤ 7 ∧ 1 ≤ c.creepLimit.toNat ∧ c.creepLimit.toNat ≤ 15
      ∧ 30 ≤ c.pacePeriod.toNat ∧ c.pacePeriod.toNat ≤ 120 ∧ 10 ≤ c.musterTime.toNat ∧ c.musterTime.toNat ≤ 60
      ∧ 2 ≤ c.reversalDwell.toNat ∧ c.reversalDwell.toNat ≤ 30) := by
  rw [Bool.not_eq_true', Bool.eq_false_iff, not_iff_not]
  simp only [ConfigRecord.fieldsInRange, Bool.and_eq_true, inRange_iff, Nat.zero_le, true_and, and_assoc]

/-- The level set of table D (R30). -/
theorem ConfigRecord.levelSet_of_tableD {c : ConfigRecord} (tableD : c.levelTable = 3) :
    c.levelSet = { stop := c.startLevelD.toNat - hysteresisValue c.hysteresisCode, start := c.startLevelD.toNat,
                   resume := c.holdLevelD.toNat - hysteresisValue c.hysteresisCode, hold := c.holdLevelD.toNat,
                   halt := c.haltLevelD.toNat } := by
  rw [levelSet_eq, tableD]
  rfl

/-- Check 4: a level table code of 3 with a hysteresis code outside Table 2-4 or levels out of the order of R31. -/
theorem ConfigRecord.tableD_invalid_iff (c : ConfigRecord) {h : Int} (value : hysteresisValue c.hysteresisCode = h) :
    c.levelTable = 3 ∧ (15 < c.hysteresisCode.toNat ∨ c.levelSet.inOrder = false)
      ↔ c.levelTable.toNat = 3 ∧ ¬(c.hysteresisCode.toNat ≤ 15 ∧ 0 ≤ (c.startLevelD.toNat : Int) - h
          ∧ (c.startLevelD.toNat : Int) - h < c.startLevelD.toNat
          ∧ (c.startLevelD.toNat : Int) < c.holdLevelD.toNat - h ∧ (c.holdLevelD.toNat : Int) - h < c.holdLevelD.toNat
          ∧ (c.holdLevelD.toNat : Int) < c.haltLevelD.toNat ∧ c.haltLevelD.toNat ≤ 1200) := by
  have code : c.levelTable.toNat = 3 ↔ c.levelTable = 3 := BitVec.toNat_inj (y := 3)
  rw [code]
  refine and_congr_right fun tableD => ?_
  rw [c.levelSet_of_tableD tableD, value, LevelSet.inOrder, decide_eq_false_iff_not]
  dsimp only
  omega

/-- Check 5: the lost limit against the stale age of three report periods. -/
theorem ConfigRecord.lostTenths_le_staleAge_iff (c : ConfigRecord) :
    c.lostTenths ≤ c.staleAge ↔ ¬(3 * (10 + 5 * c.reportCode.toNat) < 10 * c.lostLimit.toNat) :=
  not_lt.symm

/-- Check 6: the own position against 1 to N. -/
theorem own_outside_iff (own towers : Nat) : own < 1 ∨ towers < own ↔ ¬(1 ≤ own ∧ own ≤ towers) := by
  rw [not_and_or, not_le, not_le]

/-! ### The statement -/

/-- Settles O6: the loader is judged by `configFailure`, whose checks are those of the statement one by one. -/
theorem configurationChecksDecide : Obligations.ConfigurationChecksDecide := by
  intro s image ready full drive noReset reading exchange
  obtain ⟨t, run, config, own, judged⟩ :=
    exec_configReadComplete_judges (drive.startUp.reading reading) noReset reading exchange image ready
  refine ⟨t, run, config, own, ?_⟩
  have crc := crc_differs_iff full
  have ranges := (ConfigRecord.ofBytes image).fieldOutOfRange_iff
  have levels := (ConfigRecord.ofBytes image).tableD_invalid_iff (hysteresisValue_eq _)
  have age := (ConfigRecord.ofBytes image).lostTenths_le_staleAge_iff
  have place := own_outside_iff s.loader.own.toNat (ConfigRecord.ofBytes image).towers.toNat
  simp only [configFailure, apply_ite t.loader.Judged] at judged
  exact (if_congr crc rfl <| if_congr Iff.rfl rfl <| if_congr ranges rfl <| if_congr levels rfl <|
    if_congr age rfl <| if_congr place rfl rfl).mp judged

end Sys2Proof.Machine
end

section
/-! Proofs of the statements on every step (O58, O59, O60, O2, O1): what a step is, what the five commands of start-up
do beside all others, and each standing fact carried through both kinds. -/

open Sys2Proof Sys2Proof.Machine Host

namespace Sys2Proof.Machine

/-! ### A step, and the kinds of command -/

/-- What a step can be: idle on an empty queue, or the front command on the rest of the queue. -/
theorem step_cases {s t : State} (e : step s = .next t) :
    t = s ∨ ∃ i rest, exec i (s.setPending rest) = .next t := by
  unfold step at e
  split at e
  · injection e with e
    exact .inl e.symm
  · exact .inr ⟨_, _, e⟩

/-- What the queue does not enter and every command keeps is kept by every step. -/
theorem step_keeps {P : State → Prop} (queue : ∀ s rest, P s → P (s.setPending rest))
    (kept : ∀ i s t, P s → exec i s = .next t → P t) {s t : State} (h : P s) (e : step s = .next t) : P t := by
  rcases step_cases e with rfl | ⟨i, rest, run⟩
  · exact h
  · exact kept i _ _ (queue s rest h) run

/-- A command that is none of the five of the resets and of the configuration read (12). -/
def OutsideStartUp (i : Instr) : Prop :=
  i ≠ .powerOnReset ∧ i ≠ .resetPinAssert ∧ (∀ p, i ≠ .powerOnResetEnd p) ∧ (∀ p, i ≠ .resetPinRelease p)
    ∧ ∀ image ready, i ≠ .configReadComplete image ready

/-- What a command can be to the start-up (12): the beginning of a reset, nothing, the end of one of two resets, the end
of the last, the end of the configuration read, or a command outside the start-up. -/
inductive StartUpCase (i : Instr) (s t : State) : Prop
  | resets (keep : Bool) (r : ResetLines) (on : (r.powerOn || r.pin) = true)
      (eq : t = (s.beginReset keep).setResets r)
  | stays (eq : t = s)
  | oneEnds (r : ResetLines) (within : s.inReset = true) (eq : t = s.setResets r)
  | lastEnds (r : ResetLines) (p : Position) (within : s.inReset = true) (off : r.powerOn = false ∧ r.pin = false)
      (eq : t = (s.setResets r).endReset p)
  | reads (image : List Byte) (ready : Bool) (run : execConfigReadComplete image ready s = .next t)
  | outside (h : OutsideStartUp i)

theorem startUp_cases {i : Instr} {s t : State} (e : exec i s = .next t) : StartUpCase i s t := by
  cases i
  case powerOnReset =>
    cases e
    exact .resets false { s.resets with powerOn := true } rfl rfl
  case resetPinAssert =>
    cases e
    exact .resets true { s.resets with pin := true } (Bool.or_true _) rfl
  case powerOnResetEnd p =>
    simp only [exec, execPowerOnResetEnd] at e
    split_ifs at e with on other <;> cases e
    · exact .oneEnds _ (by simp [State.inReset, on]) rfl
    · exact .lastEnds _ p (by simp [State.inReset, on]) ⟨rfl, by simpa using other⟩ rfl
    · exact .stays rfl
  case resetPinRelease p =>
    simp only [exec, execResetPinRelease] at e
    split_ifs at e with on other <;> cases e
    · exact .oneEnds _ (by simp [State.inReset, on]) rfl
    · exact .lastEnds _ p (by simp [State.inReset, on]) ⟨by simpa using other, rfl⟩ rfl
    · exact .stays rfl
  case configReadComplete image ready => exact .reads image ready e
  all_goals exact .outside ⟨nofun, nofun, nofun, nofun, nofun⟩

/-- The record and its CRC field taken into the loader and the select released, before the checks (R169, R170). -/
def State.readConfig (s : State) (image : List Byte) : State :=
  (s.setLoader { s.loader with state := .checking, config := ConfigRecord.ofBytes image,
                               crc := crcFieldOf image }).setSensor
    { s.sensor with select1 := false, clock := .low, dataOut := [] }

/-- The configuration checks by their outcome. -/
theorem execConfigReadComplete_eq {s : State} (noReset : s.inReset = false) (reading : s.loader.state = .reading)
    (exchange : s.sensor.exchange = .configRead) (image : List Byte) (ready : Bool) :
    execConfigReadComplete image ready s = .next
      ((configFailure (ConfigRecord.ofBytes image) (crcFieldOf image) s.loader.own).elim
        ((s.readConfig image).checksPass ready) (s.readConfig image).checksFail) := by
  rw [execConfigReadComplete, if_pos ⟨noReset, reading, exchange⟩]
  simp only [State.setSensor_loader, State.setLoader_loader]
  cases configFailure (ConfigRecord.ofBytes image) (crcFieldOf image) s.loader.own <;> rfl

/-- The checks pass only with the own position among the towers (Table 12-2, check 6). -/
theorem own_le_towers_of_passes {c : ConfigRecord} {crc : BitVec 16} {own : Position}
    (passes : configFailure c crc own = none) : own.toNat ≤ c.towers.toNat := by
  unfold configFailure at passes
  split_ifs at passes with _ _ _ _ _ place
  omega

/-- What CONFIG_READ_COMPLETE can do: nothing, or the checks in the configuration read, which fail or pass. -/
theorem configRead_cases {s t : State} {image : List Byte} {ready : Bool}
    (e : execConfigReadComplete image ready s = .next t) :
    t = s ∨ s.inReset = false ∧ s.loader.state = .reading ∧ ((∃ cause, t = (s.readConfig image).checksFail cause)
      ∨ s.loader.own.toNat ≤ (ConfigRecord.ofBytes image).towers.toNat ∧ t = (s.readConfig image).checksPass ready) := by
  by_cases reads : s.inReset = false ∧ s.loader.state = .reading ∧ s.sensor.exchange = .configRead
  case neg =>
    rw [execConfigReadComplete, if_neg reads] at e
    cases e
    exact .inl rfl
  case pos =>
    obtain ⟨noReset, reading, exchange⟩ := reads
    rw [execConfigReadComplete_eq noReset reading exchange] at e
    refine .inr ⟨noReset, reading, ?_⟩
    cases outcome : configFailure (ConfigRecord.ofBytes image) (crcFieldOf image) s.loader.own with
    | some cause => rw [outcome] at e; cases e; exact .inl ⟨cause, rfl⟩
    | none => rw [outcome] at e; cases e; exact .inr ⟨own_le_towers_of_passes outcome, rfl⟩

/-! ### The facts of the run decision -/

/-- A command that brings a frame keeps the standing facts of the run decision. -/
theorem exec_frame_driveInv {s t : State} (h : s.DriveInv) {i : Instr} {hd : Header} {k : FrameClass}
    (frame : frameOf i = some (hd, k)) (e : exec i s = .next t) : t.DriveInv := by
  cases i <;> cases frame <;> cases e
  case statusFrame => exact driveInv_receiveGood h _ _ _ _ fun _ inv on => driveInv_deliverStatus inv on _ _
  case holdFrame => exact driveInv_receiveGood h _ _ _ _ fun _ inv _ => driveInv_deliverHold inv _ _ _
  case freeFrame => exact driveInv_receiveGood h _ _ _ _ fun _ inv _ => driveInv_deliverFree inv _
  case answerFrame => exact driveInv_receiveGood h _ _ _ _ fun _ inv _ => inv
  case runOrder | stopOrder | clearOrder | orderUndefinedAction => exact driveInv_order h _ _ _ _
  all_goals exact driveInv_ask h _ _ _ _

/-- Every command keeps the standing facts of the run decision. -/
theorem exec_keeps_driveInv {s t : State} (h : s.DriveInv) (i : Instr) (e : exec i s = .next t) : t.DriveInv := by
  cases i
  case powerOnReset | resetPinAssert => cases e; exact reset_facts _ _ _
  case powerOnResetEnd p => exact exec_driveInv_powerOnResetEnd h p e
  case resetPinRelease p => exact exec_driveInv_resetPinRelease h p e
  case configReadComplete image ready => exact exec_driveInv_configReadComplete h image ready e
  case contactorRestEnd => exact exec_driveInv_restEnd h e
  case dwellTimerExpiry => exact exec_driveInv_dwell h e
  case lampBlinkStep => exact exec_driveInv_lamp h e
  case localTimeTick => exact exec_driveInv_tick h e
  case sampleTimerExpiry ready => exact exec_driveInv_sampleTimer h ready e
  case readyAssert => exact exec_driveInv_readyAssert h e
  case readyTimeout ready => exact exec_driveInv_readyTimeout h ready e
  case short ready => exact exec_driveInv_short h ready e
  case shiftComplete word ready => exact exec_driveInv_shift h word ready e
  case wheelInputChange high => exact exec_driveInv_wheelIn h high e
  case wheelPulse => exact exec_driveInv_wheelPulse h e
  case pulseFilterRelease => exact exec_driveInv_filter h e
  case stallTimerExpiry => exact exec_driveInv_stall h e
  case retryPauseEnd => exact exec_driveInv_retryEnd h e
  case coastWindowExpiry => exact exec_driveInv_coast h e
  case endOfOnPart => exact exec_driveInv_pace1 h e
  case endOfPeriod => exact exec_driveInv_pace2 h e
  case staleAgePassed p => exact exec_driveInv_stale h p e
  case lostLimitPassed p => exact exec_driveInv_lost h p e
  case musterTimerExpiry => exact exec_driveInv_musterTimer h e
  case loopSenseChange present => exact exec_driveInv_loopChange h present e
  case loopSenseSettled => exact exec_driveInv_loopSettled h e
  case characterReceived line samples => exact exec_driveInv_char h line samples e
  case receiverIdle line => exact exec_driveInv_idle h line e
  case frameCheckFailed line => exact exec_driveInv_checkFailed h line e
  case reportTimerExpiry => exact exec_driveInv_report h e
  case transmissionStart times => exact exec_driveInv_start h times e
  case transmissionComplete => exact exec_driveInv_complete h e
  case clash => exact exec_driveInv_clash h e
  case quietTimerExpiry line => exact exec_driveInv_quiet h line e
  case seizeDetected line => exact exec_driveInv_seize h line e
  case seizeEnd => exact exec_driveInv_seizeEnd h e
  case answerDiscard => exact exec_driveInv_discard h e
  all_goals exact exec_frame_driveInv h rfl e

/-- Settles O58: the queue is no part of the run decision, and every command keeps its standing facts. -/
theorem everyStepKeepsTheRunDecision : Obligations.EveryStepKeepsTheRunDecision :=
  fun _ _ h => step_keeps (fun _ rest inv => driveInv_setPending inv rest)
    (fun i _ _ inv => exec_keeps_driveInv inv i) h

/-! ### The facts of a block -/

/-- The checks passed (R171): from the hand-over on there is only a change of the port and the settling. -/
theorem Quiet.checksPass {R : State → State → Prop} (q : Quiet R) (sensor : ∀ s x, R s (s.setSensor x)) (s : State)
    (ready : Bool) : R s.handOver (s.checksPass ready) := by
  have senses : R s.handOver (s.handOver.beginSensing ready) := by
    unfold State.beginSensing
    split
    case isTrue => exact sensor _ _
    case isFalse =>
      obtain ⟨port, begins⟩ := beginExchange_eq s.handOver ready
      exact begins ▸ sensor _ _
  exact q.trans senses (q.settle _)

/-- What the hand-over establishes and every change after it keeps stands at the end of the checks. -/
theorem checksPass_keeps {P : State → Prop} (keep : KeepAll (KeptAfterChecks P)) {s : State} (h : P s.handOver)
    (ready : Bool) : P (s.checksPass ready) :=
  (keep.toQuiet.checksPass keep.anySensor s ready ⟨h, rfl⟩).1

/-- A standing fact of one block through the whole life of a station: kept by every primitive change after the checks,
by what leaves the blocks before them, by the resets and their ends, and by both outcomes of the checks. -/
structure StandingFact (P : State → Prop) : Prop where
  keep   : KeepAll (KeptAfterChecks P)
  still  : ∀ s t, Still s t → P s → P t
  queue  : ∀ s rest, P s → P (s.setPending rest)
  reset  : ∀ (s : State) keep r, P ((s.beginReset keep).setResets r)
  drops  : ∀ s r, s.DriveInv → s.inReset = true → P s → P (s.setResets r)
  ends   : ∀ s r p, s.DriveInv → s.inReset = true → P s → P ((s.setResets r).endReset p)
  fails  : ∀ (s : State) image cause, s.inReset = false → s.loader.state = .reading → P s →
    P ((s.readConfig image).checksFail cause)
  passes : ∀ (s : State) image, s.inReset = false → s.loader.state = .reading →
    s.loader.own.toNat ≤ (ConfigRecord.ofBytes image).towers.toNat → P s → P (s.readConfig image).handOver

/-- Every command keeps such a fact. -/
theorem StandingFact.exec_keeps {P : State → Prop} (f : StandingFact P) {s t : State} (d : s.DriveInv) (h : P s)
    {i : Instr} (e : exec i s = .next t) : P t := by
  cases startUp_cases e with
  | resets keep r on eq => exact eq ▸ f.reset s keep r
  | stays eq => exact eq ▸ h
  | oneEnds r within eq => exact eq ▸ f.drops s r d within h
  | lastEnds r p within off eq => exact eq ▸ f.ends s r p d within h
  | reads image ready run =>
    rcases configRead_cases run with rfl | ⟨noReset, reading, ⟨cause, rfl⟩ | ⟨place, rfl⟩⟩
    · exact h
    · exact f.fails s image cause noReset reading h
    · exact checksPass_keeps f.keep (f.passes s image noReset reading place h) ready
  | outside ordinary =>
    by_cases passed : s.loader.state = .passed
    · exact (f.keep.exec_keep s i e ordinary ⟨h, passed⟩).1
    · exact f.still s t (still_step d passed i e ordinary) h

/-- Every step keeps such a fact, beside the facts of the run decision. -/
theorem StandingFact.step_keeps {P : State → Prop} (f : StandingFact P) {s t : State} (d : s.DriveInv)
    (e : step s = .next t) (h : P s) : P t :=
  (Machine.step_keeps (P := fun u => u.DriveInv ∧ P u)
    (fun u rest inv => ⟨driveInv_setPending inv.1 rest, f.queue u rest inv.2⟩)
    (fun i _ _ inv run => ⟨exec_keeps_driveInv inv.1 i run, f.exec_keeps inv.1 inv.2 run⟩) ⟨d, h⟩ e).2

theorem not_passed_of_reading {s : State} (reading : s.loader.state = .reading) : s.loader.state ≠ .passed := by
  rw [reading]; decide

theorem StandingFact.lead : StandingFact State.LeadInv where
  keep := lead_keep
  still _ _ k h := LeadInv.congr h k.g k.dir (by rw [k.l]) (by rw [k.l])
  queue _ _ h := LeadInv.congr h rfl rfl rfl rfl
  reset s keep r := (all_reset s keep r).lead
  drops _ _ _ _ h := LeadInv.congr h rfl rfl rfl rfl
  ends _ _ _ _ _ h := LeadInv.congr h rfl rfl rfl rfl
  fails _ _ _ _ reading h := ⟨h.lead, h.count, h.bends, fun _ => h.early (not_passed_of_reading reading), nofun⟩
  passes s image _ reading _ h := by
    have empty : s.governor.window = [] := h.early (not_passed_of_reading reading)
    have count : s.governor.window.length ≤ windowSize (ConfigRecord.ofBytes image).windowCode :=
      empty ▸ Nat.zero_le _
    exact ⟨h.lead, count, h.bends, fun _ => empty, fun _ => ⟨rfl, rfl⟩⟩

/-- Before the checks have passed no source has a hold record. -/
theorem State.HoldInv.early_none {s : State} (h : s.HoldInv) (reading : s.loader.state = .reading) (p : Position) :
    s.holds.recordOf p = none := by
  simp [HoldTable.recordOf, h.early (not_passed_of_reading reading), Vector.get_eq_getElem]

theorem StandingFact.hold : StandingFact State.HoldInv where
  keep := hold_keep
  still _ _ k h := HoldInv.congr h (by rw [k.h]) k.u k.n k.l k.z
  queue _ _ h := HoldInv.congr h rfl rfl rfl rfl rfl
  reset s keep r := (all_reset s keep r).hold
  drops _ _ _ within h := ⟨h.records, h.early, fun _ => h.resets within⟩
  ends _ _ _ _ within h :=
    ⟨fun q _ some => absurd ((h.early_none (h.resets within) q).symm.trans some) nofun, h.early, fun _ => h.resets within⟩
  fails _ _ _ noReset reading h :=
    ⟨fun q _ some => absurd ((h.early_none reading q).symm.trans some) nofun,
     fun _ => h.early (not_passed_of_reading reading), fun resets => absurd (noReset.symm.trans resets) nofun⟩
  passes _ _ noReset reading _ h :=
    ⟨fun q _ some => absurd ((h.early_none reading q).symm.trans some) nofun, fun early => absurd rfl early,
     fun resets => absurd (noReset.symm.trans resets) nofun⟩

/-- Before the checks have passed the claim is empty. -/
theorem State.ClaimInv.early_reach {s t : State} (h : s.ClaimInv) (early : s.claim.reasons = ReasonSet.empty)
    (same : t.claim = s.claim) : t.claim.reach = t.reachOf t.claim.reasons := by
  rw [same, h.reach, early, State.reachOf_empty, State.reachOf_empty]

theorem StandingFact.claim : StandingFact State.ClaimInv where
  keep := claim_keep
  still _ _ k h := h.congr k.c k.cr k.l k.z
  queue _ _ h := h.congr rfl rfl rfl rfl
  reset s keep r := (all_reset s keep r).claim
  drops _ _ _ within h := ⟨h.reach, h.pacer, h.early, h.place, fun _ => h.resets within⟩
  ends _ _ _ _ within h :=
    have early := not_passed_of_reading (h.resets within)
    ⟨h.early_reach (h.early early) rfl, fun _ => h.early early, fun _ => h.early early, fun passed => absurd passed early,
     fun _ => h.resets within⟩
  fails _ _ _ noReset reading h :=
    have empty := h.early (not_passed_of_reading reading)
    ⟨h.early_reach empty rfl, fun _ => empty, fun _ => empty, nofun,
     fun resets => absurd (noReset.symm.trans resets) nofun⟩
  passes _ _ noReset reading place h :=
    have empty := h.early (not_passed_of_reading reading)
    ⟨h.early_reach empty rfl, fun _ => empty, fun _ => empty, fun _ => place,
     fun resets => absurd (noReset.symm.trans resets) nofun⟩

/-- The roster at the end of the checks, from the one a reset leaves (R102 to R104): the own record CURRENT with nothing
counted, and every record expected up to N and otherwise as after a reset. -/
theorem Roster.recordOf_atChecks {r : Roster} (early : r.records = Vector.replicate 32 RosterRecord.reset)
    (own : Position) (towers : Nat) (p : Position) : (r.atChecks own towers).recordOf p =
      if p = own then { RosterRecord.reset with expected := decide (own.toNat ≤ towers), presence := .current,
                                                lastSeq := some 255 }
      else { RosterRecord.reset with expected := decide (p.toNat ≤ towers) } := by
  have marked (q : Position) : Roster.recordOf { r with records := Vector.ofFn fun i : Fin 32 =>
      { r.records.get i with expected := decide (i.val ≤ towers) } } q
        = { RosterRecord.reset with expected := decide (q.toNat ≤ towers) } := by
    simp [Roster.recordOf, early, Vector.get_eq_getElem, placeOf]
  rw [Roster.atChecks, Roster.recordOf_put, marked, marked]
  rfl

theorem StandingFact.roster : StandingFact State.RosterInv where
  keep := roster_keep
  still _ _ k h := RosterInv.congr h (by rw [k.r]) (by rw [k.l]) (by rw [k.l]) (by rw [k.l])
  queue _ _ h := RosterInv.congr h rfl rfl rfl rfl
  reset s keep r := (all_reset s keep r).roster
  drops _ _ _ _ h := RosterInv.congr h rfl rfl rfl rfl
  ends s _ _ d within h :=
    have early := not_passed_of_reading (d.startUp.resets within)
    ⟨fun k => absurd k early, fun k => absurd k early, fun k => absurd k early, fun k => absurd k early, h.early⟩
  fails _ _ _ _ reading h := ⟨nofun, nofun, nofun, nofun, fun _ => h.early (not_passed_of_reading reading)⟩
  passes s image _ reading place h := by
    have record (p : Position) : (s.readConfig image).handOver.roster.recordOf p = _ :=
      Roster.recordOf_atChecks (h.early (not_passed_of_reading reading)) s.own
        (ConfigRecord.ofBytes image).towers.toNat p
    have own : (s.readConfig image).handOver.own = s.own := rfl
    have towers : (s.readConfig image).handOver.towers = (ConfigRecord.ofBytes image).towers.toNat := rfl
    refine ⟨fun _ => ?own, fun _ p => ?expected, fun _ p above => ?above, fun _ => place, fun early => absurd rfl early⟩
    case own => rw [own, record, if_pos rfl]; exact ⟨rfl, rfl, rfl⟩
    case expected =>
      rw [record, towers]
      split
      case isTrue here => rw [here]
      case isFalse => rfl
    case above =>
      rw [record, if_neg fun here => absurd place (by rw [towers, here] at above; exact not_le.mpr above)]
      exact ⟨rfl, rfl, rfl, rfl⟩

/-! ### The range of a lead -/

/-- A sum of bends in range is within the range times their number. -/
theorem sum_in_range {bends : List Int} (range : ∀ b ∈ bends, -1500 ≤ b ∧ b ≤ 1500) :
    -(1500 * bends.length) ≤ bends.sum ∧ bends.sum ≤ 1500 * bends.length := by
  induction bends with
  | nil => simp
  | cons b rest ih =>
    obtain ⟨low, high⟩ := range b List.mem_cons_self
    obtain ⟨lows, highs⟩ := ih fun x mem => range x (List.mem_cons_of_mem b mem)
    rw [List.sum_cons, List.length_cons]
    push_cast
    omega

/-- A mean truncated toward zero stays in the range of the values it is taken over. -/
theorem tdiv_in_range {sum n : Int} (pos : 0 < n) (low : -(1500 * n) ≤ sum) (high : sum ≤ 1500 * n) :
    -1500 ≤ sum.tdiv n ∧ sum.tdiv n ≤ 1500 := by
  have magnitude : (sum.tdiv n).natAbs ≤ 1500 := by
    rw [Int.natAbs_tdiv]
    exact Nat.div_le_of_le_mul (by omega)
  omega

/-- R27: a known lead is the mean of bends in range, whatever the direction. -/
theorem State.LeadInv.lead_in_range {s : State} (h : s.LeadInv) {lead : Int} (known : s.governor.lead = some lead) :
    -1500 ≤ lead ∧ lead ≤ 1500 := by
  have mean : leadOf s.governor.window s.drive.direction = some lead := h.lead.symm.trans known
  unfold leadOf at mean
  split at mean
  case h_1 => cases mean
  case h_2 b rest window =>
    injection mean with mean
    obtain ⟨low, high⟩ := sum_in_range (window ▸ h.bends)
    have range := tdiv_in_range (n := (b :: rest).length) (by simp only [List.length_cons]; omega) low high
    have sign : s.drive.direction.sign = 1 ∨ s.drive.direction.sign = -1 := by
      cases s.drive.direction <;> decide
    rw [window] at mean
    rcases sign with sign | sign <;> rw [sign] at mean <;> omega

/-- Settles O59: each of the four is a standing fact of its block, and the lead is a mean of bends in range. -/
theorem everyStepKeepsTheBlocks : Obligations.EveryStepKeepsTheBlocks :=
  ⟨fun _ _ d e => ⟨StandingFact.lead.step_keeps d e, StandingFact.roster.step_keeps d e,
    StandingFact.hold.step_keeps d e, StandingFact.claim.step_keeps d e⟩, fun _ _ h known => h.lead_in_range known⟩

/-! ### The timers and the port -/

/-- Every command keeps the timers to their drive states and the port to its exchange state. -/
theorem exec_keeps_timers {s t : State} (d : s.DriveInv) (timers : s.TimerInv) (port : s.PortInv) {i : Instr}
    (e : exec i s = .next t) : t.TimerInv ∧ t.PortInv := by
  cases startUp_cases e with
  | resets keep r on eq => exact eq ▸ timed_reset s keep r
  | stays eq => exact eq ▸ ⟨timers, port⟩
  | oneEnds r within eq => exact eq ▸ timed_dropReset timers port r within
  | lastEnds r p within off eq => exact eq ▸ timed_endReset d timers port p within r off
  | reads image ready run => exact timed_config d timers port image ready run
  | outside ordinary =>
    by_cases passed : s.loader.state = .passed
    case neg => exact timed_early d passed timers port i e ordinary
    case pos =>
      have noReset : s.inReset = false := by
        by_contra within
        exact not_passed_of_reading (d.startUp.resets (Bool.not_eq_false _ ▸ within)) passed
      obtain ⟨keepsTimers, keepsPort⟩ := timed_passed d i e ordinary
      exact ⟨(keepsTimers ⟨timers, passed⟩).1, (keepsPort ⟨⟨port, noReset⟩, passed⟩).1.1⟩

/-- Settles O60: as for the run decision, with its facts beside those of the timers and the port. -/
theorem everyStepKeepsTheTimers : Obligations.EveryStepKeepsTheTimers := by
  intro s t d timers port e
  exact (step_keeps (P := fun u => u.DriveInv ∧ u.TimerInv ∧ u.PortInv)
    (fun u rest inv => ⟨driveInv_setPending inv.1 rest, inv.2.1.congr rfl rfl rfl rfl rfl rfl, inv.2.2.same rfl rfl rfl⟩)
    (fun i _ _ inv run => ⟨exec_keeps_driveInv inv.1 i run, exec_keeps_timers inv.1 inv.2.1 inv.2.2 run⟩)
    ⟨d, timers, port⟩ e).2

end Sys2Proof.Machine
end

section
/-! Proofs of the statements on a single step (O1, O2, O3) and on the outputs across it (O15): the front command, the
answer of every command, the events that cannot occur, and how a command moves RUN and DIRECTION. -/

open Sys2Proof Sys2Proof.Machine Host

namespace Sys2Proof.Machine

/-- Settles O1: the two cases of the queue. -/
theorem stepTakesFrontCommand : Obligations.StepTakesFrontCommand := by
  refine fun s => ⟨fun c rest front => ?_, fun empty => ?_⟩
  · rw [step, front]; rfl
  · rw [step, empty]

/-! ### Every command answers -/

/-- An outcome is a next state. -/
def Answers (o : Outcome State Fault Refusal) : Prop := ∃ t, o = .next t

theorem answers_next (t : State) : Answers (.next t) := ⟨t, rfl⟩

theorem answers_ite {c : Prop} [Decidable c] {a b : Outcome State Fault Refusal} (ha : Answers a) (hb : Answers b) :
    Answers (if c then a else b) := by
  split
  · exact ha
  · exact hb

theorem exec_configRead_answers (image : List Byte) (ready : Bool) (s : State) :
    Answers (execConfigReadComplete image ready s) := by
  unfold execConfigReadComplete
  refine answers_ite ?_ (answers_next _)
  dsimp only
  split <;> exact answers_next _

theorem exec_receiverIdle_answers (line : Line) (s : State) : Answers (execReceiverIdle line s) := by
  unfold execReceiverIdle
  refine answers_ite (answers_next _) (answers_ite ?_ (answers_next _))
  split <;> exact answers_next _

theorem exec_frameCheckFailed_answers (line : Line) (s : State) : Answers (execFrameCheckFailed line s) := by
  unfold execFrameCheckFailed
  refine answers_ite (answers_ite (answers_next _) ?_) (answers_next _)
  split <;> exact answers_next _

theorem exec_quietTimerExpiry_answers (line : Line) (s : State) : Answers (execQuietTimerExpiry line s) := by
  unfold execQuietTimerExpiry
  refine answers_ite (answers_ite ?_ (answers_next _)) (answers_next _)
  split <;> exact answers_next _

/-- Every command answers a next state: none of its branches is a fault or a refusal. -/
theorem exec_answers (i : Instr) (s : State) : Answers (exec i s) := by
  cases i
  case configReadComplete image ready => exact exec_configRead_answers image ready s
  case receiverIdle line => exact exec_receiverIdle_answers line s
  case frameCheckFailed line => exact exec_frameCheckFailed_answers line s
  case quietTimerExpiry line => exact exec_quietTimerExpiry_answers line s
  case powerOnResetEnd | resetPinRelease | dwellTimerExpiry | endOfOnPart | endOfPeriod | loopSenseSettled
      | seizeDetected =>
    exact answers_ite (answers_ite (answers_next _) (answers_next _)) (answers_next _)
  case wheelPulse => exact answers_ite (answers_next _) (answers_ite (answers_next _) (answers_next _))
  case contactorRestEnd | localTimeTick | readyAssert | readyTimeout | short | shiftComplete | wheelInputChange
      | pulseFilterRelease | stallTimerExpiry | retryPauseEnd | coastWindowExpiry | staleAgePassed | lostLimitPassed
      | musterTimerExpiry | loopSenseChange | characterReceived | reportTimerExpiry =>
    exact answers_ite (answers_next _) (answers_next _)
  case lampBlinkStep =>
    refine answers_ite ?_ (answers_next _)
    split <;> exact answers_next _
  case sampleTimerExpiry =>
    refine answers_ite ?_ (answers_next _)
    split <;> exact answers_next _
  case transmissionStart =>
    simp only [exec, execTransmissionStart]
    split
    · exact answers_next _
    · exact answers_ite (answers_next _) (answers_next _)
  case transmissionComplete | clash | seizeEnd =>
    simp only [exec, execTransmissionComplete, execClash, execSeizeEnd]
    split <;> exact answers_next _
  case answerDiscard =>
    simp only [exec, execAnswerDiscard]
    split
    · exact answers_ite (answers_next _) (answers_next _)
    · exact answers_next _
  all_goals exact answers_next _

/-- No command puts one in the queue or takes one from it. -/
theorem exec_pending {i : Instr} {s t : State} (e : exec i s = .next t) : t.pending = s.pending := by
  cases startUp_cases e with
  | resets keep r on eq => exact eq ▸ rfl
  | stays eq => exact eq ▸ rfl
  | oneEnds r within eq => exact eq ▸ rfl
  | lastEnds r p within off eq => exact eq ▸ rfl
  | outside ordinary => exact sameQueue_keep.exec_keep s i e ordinary
  | reads image ready run =>
    rcases configRead_cases run with rfl | ⟨-, -, ⟨cause, rfl⟩ | ⟨-, rfl⟩⟩
    · rfl
    · rfl
    · exact sameQueue_keep.toQuiet.checksPass sameQueue_keep.anySensor (s.readConfig image) ready

/-- Settles O2: no branch of a command stops it, and none writes the queue. -/
theorem everyCommandAnswersNext : Obligations.EveryCommandAnswersNext := fun i s =>
  have ⟨t, e⟩ := exec_answers i s
  ⟨t, e, exec_pending e⟩

/-! ### RUN and DIRECTION across a command -/

/-- A command outside the start-up leaves RUN to a rest of 1.0 s or not at all (R2, R3). -/
theorem exec_restGiven {s t : State} (d : s.DriveInv) {i : Instr} (ordinary : OutsideStartUp i)
    (e : exec i s = .next t) (running : s.drive.state = .run) : t.drive.state = .run ∨ t.drive.rest = .resting 10 := by
  by_cases clocked : i = .contactorRestEnd ∨ i = .localTimeTick
  case neg =>
    exact (restGiven_keep.exec_keep s i e ordinary (fun k => absurd k clocked)
      (fun _ => restGiven_keep.stall_kept s fun _ _ => .same rfl rfl) (fun _ _ => restGiven_transition _ _)).2 running
  case pos =>
    rcases clocked with rfl | rfl
    · have rested := (run_rested d running).2
      simp only [exec, execContactorRestEnd, rested, reduceCtorEq, and_false, if_false] at e
      cases e
      exact .inl running
    · simp only [exec, execLocalTimeTick] at e
      split_ifs at e <;> cases e <;> exact .inl running

/-- A frame changes DIRECTION to the order's alone, and that as DWELL is entered (R5). -/
theorem exec_frame_direction {s t : State} (d : s.DriveInv) {i : Instr} {h : Header} {k : FrameClass}
    (frame : frameOf i = some (h, k)) (e : exec i s = .next t) : DirectionGiven s t := by
  have kept (deliver : State → State) (fill) (keeps : ∀ u, SameDirection u (deliver u)) :
      DirectionGiven s (s.receiveGood h k fill deliver) := receive_dir d h k fill deliver fun u _ _ => .inl (keeps u)
  have q := sameDirection_keep
  cases i <;> cases frame <;> cases e
  case statusFrame => exact status_dir d _ _ _
  case runOrder | stopOrder | clearOrder | orderUndefinedAction => exact order_dir d _ _ _ _
  case holdFrame => exact kept _ _ fun u => q.deliverHold_kept u _ _ _
  case freeFrame => exact kept _ _ fun u => q.deliverFree_kept u _
  case answerFrame => exact kept _ _ fun _ => rfl
  all_goals exact kept _ _ fun u => q.deliverAsk_kept u _ _ _

/-- The other commands outside the start-up leave DIRECTION alone; a receiver at the end of a collection takes a frame or
none. -/
theorem exec_direction {s t : State} (d : s.DriveInv) {i : Instr} (ordinary : OutsideStartUp i)
    (e : exec i s = .next t) : DirectionGiven s t := by
  by_cases idle : ∃ line, i = .receiverIdle line
  · obtain ⟨line, rfl⟩ := idle
    rcases exec_receiverIdle line s with run | run | ⟨f, run⟩ | ⟨j, h, k, frame, run⟩ <;> rw [run] at e
    · cases e; exact .inl rfl
    · cases e; exact .inl rfl
    · cases e; exact .inl rfl
    · exact exec_frame_direction d frame e
  · by_cases frame : ∃ h k, frameOf i = some (h, k)
    · obtain ⟨h, k, frame⟩ := frame
      exact exec_frame_direction d frame e
    · refine .inl (sameDirection_keep.exec_keep s i e ordinary (fun _ _ _ steps => steps.direction)
        (fun _ => sameDirection_keep.stall_kept s fun _ _ => rfl) fun taken => ?_)
      rcases taken with ⟨h, b, rfl⟩ | ⟨h, k, isFrame, -⟩ | isIdle
      · exact absurd ⟨h, _, rfl⟩ frame
      · exact absurd ⟨h, k, isFrame⟩ frame
      · exact absurd isIdle idle

/-- A command moves the outputs as R2, R3 and R5 give: RUN is left to a rest of 1.0 s, and DIRECTION changes to the
order's as DWELL is entered, or to FORWARD in a reset. -/
theorem exec_outputs {s t : State} (d : s.DriveInv) {i : Instr} (e : exec i s = .next t) :
    (s.drive.state = .run → t.drive.state = .run ∨ t.drive.rest = .resting 10)
    ∧ (DirectionGiven s t ∨ t.inReset = true ∧ t.drive.state = .offline ∧ t.drive.direction = .forward) := by
  have notRun (reading : s.loader.state = .reading) : s.drive.state ≠ .run := by
    rw [d.early_offline (not_passed_of_reading reading)]; decide
  cases startUp_cases e with
  | resets keep r on eq => subst eq; exact ⟨fun _ => .inr rfl, .inr ⟨on, rfl, rfl⟩⟩
  | stays eq => subst eq; exact ⟨.inl, .inl (.inl rfl)⟩
  | oneEnds r within eq => subst eq; exact ⟨.inl, .inl (.inl rfl)⟩
  | lastEnds r p within off eq => subst eq; exact ⟨fun _ => .inr rfl, .inl (.inl rfl)⟩
  | outside ordinary => exact ⟨exec_restGiven d ordinary e, .inl (exec_direction d ordinary e)⟩
  | reads image ready run =>
    rcases configRead_cases run with rfl | ⟨-, reading, ⟨cause, rfl⟩ | ⟨-, rfl⟩⟩
    · exact ⟨.inl, .inl (.inl rfl)⟩
    · exact ⟨fun running => absurd running (notRun reading), .inl (.inl rfl)⟩
    · exact ⟨fun running => absurd running (notRun reading),
        .inl (.inl (sameDirection_keep.toQuiet.checksPass (fun _ _ => rfl) (s.readConfig image) ready))⟩

/-- Settles O15: what a command does to the two outputs, read with the standing facts of the state it leaves. -/
theorem outputsChangeOnlyAsGiven : Obligations.OutputsChangeOnlyAsGiven := by
  intro s t d e
  have after := everyStepKeepsTheRunDecision s t d e
  have output : t.drive.runOutput = decide (t.drive.state = .run) := after.contactor.1
  rcases step_cases e with rfl | ⟨i, rest, run⟩
  · exact ⟨fun running stopped => absurd running stopped, fun stopped running => absurd running stopped,
      fun turned => absurd rfl turned⟩
  · obtain ⟨rests, turns⟩ := exec_outputs (driveInv_setPending d rest) run
    refine ⟨fun running stopped => ⟨(rests running).resolve_left stopped, ?_⟩,
      fun _ running => ⟨(run_rested after running).2, ?_⟩, fun turned => ?_⟩
    · rw [output, decide_eq_false stopped]
    · rw [output, decide_eq_true running]
    · rcases turns with (same | ⟨dwell, order⟩) | ⟨reset, offline, forward⟩
      · exact absurd same turned
      · exact ⟨by rw [output, dwell]; rfl, .inl ⟨dwell, order⟩⟩
      · exact ⟨by rw [output, offline]; rfl, .inr ⟨reset, offline, forward⟩⟩

end Sys2Proof.Machine
end

section
/-! Proofs of the statements on absent events and on the timers and inputs that only count or measure (O3, O12, O13, O16,
O21, O22, O48, O53, O7, O5, O4): each command is one guard and, past it, one update. -/

open Sys2Proof Sys2Proof.Machine Host

namespace Sys2Proof.Machine

/-! ### Commands that wait for an event -/

/-- LAMP_BLINK_STEP waits for OFFLINE, a cause and the end of a switching time (R22). -/
theorem exec_lampBlinkStep_absent {s : State}
    (absent : s.drive.state ≠ .offline ∨ s.loader.offlineCause = none ∨ s.drive.blinkTimer ≠ some 0) :
    exec .lampBlinkStep s = .next s := by
  simp only [exec, execLampBlinkStep]
  split_ifs with due
  · have none : s.loader.offlineCause = none := by simpa [due.1, due.2] using absent
    rw [none]
  · rfl

/-- ANSWER_DISCARD waits for an ANSWER in its slot whose discard time has run out (R160). -/
theorem exec_answerDiscard_absent {s : State} (absent : ∀ a, s.line.answerSlot = some a → a.discard ≠ 0) :
    exec .answerDiscard s = .next s := by
  simp only [exec, execAnswerDiscard]
  cases slot : s.line.answerSlot with
  | none => rfl
  | some a => exact if_neg (absent a slot)

/-- Nothing completes, clashes or ends while the transmitter is RELEASED (R153, R154, R156). -/
theorem exec_transmitter_released {s : State} (released : s.line.transmitter = .released) :
    exec .transmissionComplete s = .next s ∧ exec .clash s = .next s ∧ exec .seizeEnd s = .next s := by
  simp only [exec, execTransmissionComplete, execClash, execSeizeEnd, released, and_self]

/-- Settles O3: each guard fails on the absence it names. -/
theorem absentEventsChangeNothing : Obligations.AbsentEventsChangeNothing := by
  intro s ready word line straps p image
  refine ⟨fun off => if_neg (by simp [off]), fun off => if_neg (by simp [off]), fun other => if_neg fun c => other c.2.2,
    fun rests => if_neg fun c => rests c.2, fun absent => if_neg (not_and_or.mpr absent), exec_lampBlinkStep_absent,
    fun runs => if_neg runs, fun other => ⟨if_neg other, if_neg other⟩, fun other => ⟨if_neg other, if_neg other⟩,
    fun runs => if_neg runs, fun runs => if_neg runs, fun runs => if_neg runs, fun absent => if_neg ?onPart,
    fun absent => if_neg ?period, fun absent => if_neg (not_and_or.mpr absent), fun absent => if_neg ?sense,
    fun runs => if_neg runs, exec_transmitter_released, fun runs => if_neg runs,
    fun young => if_neg fun c => not_lt.mpr young c.2.2.2.2, fun young => if_neg fun c => not_lt.mpr young c.2.2.2.2,
    exec_answerDiscard_absent⟩
  case onPart =>
    rintro ⟨running, -, -, reached⟩
    rcases absent with paused | early
    · exact absurd (running.symm.trans paused) nofun
    · exact not_lt.mpr reached early
  case period =>
    rintro ⟨running, reached⟩
    rcases absent with paused | early
    · exact absurd (running.symm.trans paused) nofun
    · exact not_lt.mpr reached early
  case sense =>
    rintro ⟨-, differs, held⟩
    exact absent.elim differs fun short => short held

/-! ### Timers and inputs -/

/-- Settles O12: the next place in the blink group of the cause. -/
theorem lampBlinksTheCause : Obligations.LampBlinksTheCause := by
  intro s cause offline held due count place
  have blinks : cause.blinkCount = count := by cases cause <;> rfl
  have positive : 0 < count := by cases cause <;> decide
  have last : (place + 1 = 2 * count) = (place = 2 * count - 1) := by rw [eq_iff_iff]; omega
  simp only [exec, execLampBlinkStep, if_pos (And.intro offline due), held, DriveControl.blink, blinks]
  rw [State.setDrive]
  simp only [← last]
  rfl

/-- Settles O21: each level that is new starts its measurement, and no other command does anything. -/
theorem inputChangesRestartMeasurement : Obligations.InputChangesRestartMeasurement := by
  intro s level
  refine ⟨fun new => if_neg new, fun same => if_pos same, fun new => if_neg new, fun same => if_pos same,
    fun noReset asserted => if_neg ?_, fun absent => if_pos absent, fun due => if_pos due⟩
  simp [noReset, asserted]

/-- Settles O16: the wait ends in a shift, and an expiry begins an exchange at rest or stays pending in one. -/
theorem exchangeBeginsAndShifts : Obligations.ExchangeBeginsAndShifts := by
  intro s ready
  refine ⟨fun waits => ?asserts, fun due => ⟨fun rests => ?begins, fun busy => ?pends, fun stopped => ?absent⟩⟩
  case asserts =>
    rw [show exec .readyAssert s = _ from if_pos waits]
    simp [State.setSensor, ConfigRecord.readyAsserted]
  all_goals simp only [exec, execSampleTimerExpiry, if_pos due]
  case begins =>
    rw [rests]
    exact congrArg Outcome.next (beginExchange_form s ready)
  case pends => rcases busy with busy | busy <;> rw [busy] <;> rfl
  case absent => rcases stopped with stopped | stopped <;> rw [stopped]

/-! ### A tenth of a second -/

theorem StrideMonitor.tick_runTime (m : StrideMonitor) (running : Bool) : (m.tick running).runTime =
    if running = true ∧ m.runTime.toNat < 16777215 then m.runTime + 1 else m.runTime := by
  cases running
  · exact (if_neg (fun k => absurd k.1 nofun)).symm
  · simp only [StrideMonitor.tick, true_and, if_true]
    exact satInc_eq24 m.runTime

theorem RosterRecord.tick_eq (r : RosterRecord) : r.tick = if r.presence ≠ .absent then
    { r with age := if r.age.toNat < 65535 then r.age + 1 else r.age } else r := by
  rw [RosterRecord.tick, ← satInc_eq16, ite_not]

/-- Reading the roster after a tenth of a second: every record but the own has aged (R104, R113). -/
theorem Roster.recordOf_tick (r : Roster) (own p : Position) :
    (r.tick own).recordOf p = if p = own then r.recordOf p else (r.recordOf p).tick := by
  simp only [Roster.recordOf, Roster.tick, Vector.get_eq_getElem, Vector.getElem_ofFn, Fin.eta, placeOf_inj]

/-- The discard time of an ANSWER on the line runs, and no other transmission is touched (R160). -/
theorem Transmitter.tick_cases (x : Transmitter) :
    (∀ f a, x = .sending f → f.kind = .answer a →
      x.tick = .sending { f with kind := .answer { a with discard := a.discard - 1 } })
    ∧ ((∀ f a, x = .sending f → f.kind ≠ .answer a) → x.tick = x) := by
  refine ⟨?_, fun other => ?_⟩
  · rintro f a rfl answer
    simp only [Transmitter.tick, answer]
    rfl
  · cases x with
    | released | seizing => rfl
    | sending f =>
      cases kind : f.kind with
      | answer a => exact absurd kind (other f a rfl)
      | claim _ | status => simp only [Transmitter.tick, kind]

/-- The records after a tenth of a second: those of other positions age, once the station is past its checks. -/
theorem State.tick_roster (s : State) :
    (∀ p : Position, s.tick.roster.recordOf p =
      if s.active = true ∧ p ≠ s.own ∧ (s.roster.recordOf p).presence ≠ .absent then
        { s.roster.recordOf p with age := if (s.roster.recordOf p).age.toNat < 65535
                                          then (s.roster.recordOf p).age + 1 else (s.roster.recordOf p).age }
      else s.roster.recordOf p)
    ∧ s.tick.roster.duplicateTotal = s.roster.duplicateTotal ∧ s.tick.roster.strangerTotal = s.roster.strangerTotal
    ∧ s.tick.roster.notAcceptedTotal = s.roster.notAcceptedTotal := by
  have roster : s.tick.roster = if s.active then s.roster.tick s.own else s.roster := rfl
  rw [roster]
  cases active : s.active
  case false => exact ⟨fun p => (if_neg (fun k => absurd k.1 nofun)).symm, rfl, rfl, rfl⟩
  case true =>
    refine ⟨fun p => ?_, tick_totals s.roster s.own⟩
    simp only [if_true, true_and, Roster.recordOf_tick, RosterRecord.tick_eq]
    by_cases own : p = s.own
    · rw [if_pos own, if_neg fun k => k.1 own]
    · simp only [own, if_false, not_false_eq_true, true_and, ne_eq]

/-- Settles O13: each block's part of the tick. -/
theorem localTimeTickCounts : Obligations.LocalTimeTickCounts := by
  intro s noReset less
  have run : exec .localTimeTick s = .next s.tick := by
    simp only [exec, execLocalTimeTick, noReset, Bool.false_eq_true, if_false]
  obtain ⟨records, duplicates, strangers, notAccepted⟩ := s.tick_roster
  obtain ⟨answering, other⟩ := s.line.transmitter.tick_cases
  refine ⟨s.tick, run, rfl, fun n resting => ?_, fun rested => ?_, rfl, rfl, ?stride, rfl, records, duplicates, strangers,
    notAccepted, rfl, rfl, rfl, answering, other, rfl⟩
  case stride => exact StrideMonitor.tick_runTime s.stride s.drive.runOutput ▸ rfl
  · have : s.tick.drive.rest = s.drive.tick.rest := rfl
    rw [this, DriveControl.tick, resting]
  · have : s.tick.drive.rest = s.drive.tick.rest := rfl
    rw [this, DriveControl.tick, rested]

/-! ### The span line's timers -/

/-- Settles O53: each timer's end is one update of the line. -/
theorem interfaceTimers : Obligations.InterfaceTimers := by
  refine fun s => ⟨fun seizing => ?_, fun f sending => ?_, fun due => if_pos due, fun a slot due => ?_,
    exec_answerDiscard_absent⟩
  · simp only [exec, execSeizeEnd, seizing]
    rfl
  · simp only [exec, execSeizeEnd, sending]
  · simp only [exec, execAnswerDiscard, slot, if_pos due]
    rw [← satInc_byte]
    rfl

theorem SpanLine.setLineState_keeps (x : SpanLine) (l : Line) (y : LineState) :
    (x.setLineState l y).sendLine = x.sendLine ∧ (x.setLineState l y).transmitter = x.transmitter
    ∧ (x.setLineState l y).lineState (otherLine l) = x.lineState (otherLine l)
    ∧ (x.setLineState l y).lineState l = y := by
  cases l <;> exact ⟨rfl, rfl, rfl, rfl⟩

/-- Settles O48: the line is QUIET, and the four conditions of R155 decide on the change of the send line. -/
theorem quietTimerExpires : Obligations.QuietTimerExpires := by
  intro s line due x changes
  obtain ⟨sendLine, transmitter, other, -⟩ := s.line.setLineState_keeps line
    { s.line.lineState line with alive := false, quietTimer := none }
  have guard : (line = x.sendLine ∧ (x.lineState (otherLine line)).alive = true
      ∧ (s.setLine x).checksPassed = true ∧ s.config.alternateLine = 1) ↔ changes := by
    rw [sendLine, other]
    exact and_congr_right fun _ => and_congr_right fun _ => and_congr decide_eq_true_iff Iff.rfl
  have run : exec (.quietTimerExpiry line) s = if changes then
      match x.transmitter with
      | .sending _ => .next (s.setLine { x with changeWaiting := true })
      | .released => .next (s.setLine x.changeSendLine)
      | .seizing => .next (s.setLine x.changeSendLine)
      else .next (s.setLine x) := by
    rw [show exec (.quietTimerExpiry line) s = _ from if_pos due]
    exact if_congr guard rfl rfl
  rw [run]
  refine ⟨fun stays => if_neg stays, fun change ⟨f, sending⟩ => ?_, fun change idle => ?_⟩
  · rw [if_pos change, transmitter, sending]
    rfl
  · have send : line = s.line.sendLine := change.1
    have changed : x.changeSendLine = { x with
        sendLine := otherLine line, yieldBias := false, claimClashes := 0, answerClashes := 0, statusClashes := 0
        changeWaiting := false } := by rw [SpanLine.changeSendLine, sendLine, send]
    rw [if_pos change]
    split
    case h_1 f sending => exact absurd ⟨f, transmitter.symm.trans sending⟩ idle
    all_goals exact congrArg (fun y => Outcome.next (s.setLine y)) changed

/-! ### Resets -/

theorem HoldTable.recordOf_reset (p : Position) : HoldTable.reset.recordOf p = none :=
  HoldTable.recordOf_replicate HoldTable.reset p

theorem Roster.recordOf_reset (p : Position) : Roster.reset.recordOf p = RosterRecord.reset := by
  simp [Roster.recordOf, Roster.reset, Vector.get_eq_getElem]

theorem SpanLine.lineState_reset (l : Line) : SpanLine.reset.lineState l = LineState.reset := by cases l <;> rfl

/-- The reset state is that in which a power-on reset leaves it. -/
theorem reset_eq : State.reset = (State.reset.beginReset false).setResets { powerOn := true, pin := false } := rfl

/-- Settles O9: the state in a reset has every standing fact, whatever it was before. -/
theorem resetStateStands : Obligations.ResetStateStands := by
  have blocks : BlockInvs State.reset := reset_eq ▸ all_reset _ _ _
  have timers : State.reset.TimerInv ∧ State.reset.PortInv := reset_eq ▸ timed_reset _ _ _
  exact ⟨reset_eq ▸ reset_facts _ _ _, blocks.lead, blocks.roster, blocks.hold, blocks.claim, timers.1, timers.2⟩

/-- Settles O4: the reset values, the retention set apart. -/
theorem resetsForceEveryBlock : Obligations.ResetsForceEveryBlock := by
  refine ⟨fun s => ⟨rfl, rfl⟩, fun i s reset => ?_⟩
  obtain ⟨keep, r, run⟩ : ∃ keep r, exec i s = .next ((s.beginReset keep).setResets r) := by
    rcases reset with rfl | rfl
    · exact ⟨false, _, rfl⟩
    · exact ⟨true, _, rfl⟩
  refine ⟨_, run, ?_⟩
  have holds : ((s.beginReset keep).setResets r).holds = HoldTable.reset := rfl
  have roster : ((s.beginReset keep).setResets r).roster = Roster.reset := rfl
  have line : ((s.beginReset keep).setResets r).line = SpanLine.reset := rfl
  simp only [holds, roster, line, HoldTable.recordOf_reset, Roster.recordOf_reset, SpanLine.lineState_reset,
    implies_true, true_and]
  cases keep <;> and_intros <;> intros <;> and_intros <;> rfl

/-- Settles O5: the start-up begins at the end of the last reset. -/
theorem resetEndBeginsConfigRead : Obligations.ResetEndBeginsConfigRead := by
  refine fun s straps => ⟨fun on => ?_, fun on => ?_⟩
  · rw [show exec (.powerOnResetEnd straps) s = _ from if_pos on]
    cases other : s.resets.pin
    · simp [State.endReset, State.setResets, State.setLoader, State.setDrive, State.setLocalTime, State.setSensor, other]
    · rfl
  · rw [show exec (.resetPinRelease straps) s = _ from if_pos on]
    cases other : s.resets.powerOn
    · simp [State.endReset, State.setResets, State.setLoader, State.setDrive, State.setLocalTime, State.setSensor, other]
    · rfl

/-- Settles O7: the failing outcome of the checks. -/
theorem checksFailedStaysOffline : Obligations.ChecksFailedStaysOffline := by
  intro s image ready cause noReset reading exchange offline fails
  have run : exec (.configReadComplete image ready) s = _ :=
    execConfigReadComplete_eq noReset reading exchange image ready
  rw [run, fails]
  rfl

end Sys2Proof.Machine
end

section
/-! The facts the statements on the drive state share: the order of force as one list (O14), what every decision leaves
alone, a transition read field by field, and the timers of a report. -/

open Sys2Proof Sys2Proof.Machine Host

namespace Sys2Proof.Machine

/-! ### The order of force -/

/-- Lines 1 to 6 of Table 1-2; none when none of them holds. -/
def State.upperTier (s : State) : Option DriveState :=
  if s.loader.state ≠ .passed ∨ s.loader.offlineCause ≠ none then some .offline
  else if s.halt.latched = true then some .halted
  else if s.orders.unset = true ∨ s.orders.action ≠ .run then some .idle
  else if s.drive.state = .dwell ∧ s.drive.dwellTimer ≠ none then some .dwell
  else if s.drive.state = .muster ∧ s.orders.counting = true then some .muster
  else if s.drive.state = .stalled ∧ s.stride.retryPause ≠ none then some .stalled
  else none

theorem State.movingTier_eq (s : State) : s.movingTier = if s.holds.isEmpty = false then .held
    else if s.runRequest = true ∧ s.drive.rest = .rested then .run else .wait := by
  rw [State.movingTier]
  cases s.holds.isEmpty <;> rfl

/-- Table 1-2: lines 1 to 6 before lines 7 to 9. -/
theorem State.settledState_upper (s : State) : s.settledState = s.upperTier.getD s.movingTier := by
  have checks : s.checksPassed = false ↔ s.loader.state ≠ .passed := decide_eq_false_iff_not
  unfold State.settledState State.topTier State.upperTier
  simp only [checks]
  split_ifs <;> rfl

/-- Settles O14: Table 1-2 from its two halves, and settling by its definition. -/
theorem orderOfForceSettles : Obligations.OrderOfForceSettles := by
  refine fun s => ⟨?table, s.holds.isEmpty_iff, ?request, settle_same, fun new => if_neg new,
    s.transition_drive_state⟩
  case table =>
    rw [s.settledState_upper, s.movingTier_eq, State.upperTier]
    split_ifs <;> rfl
  case request => simp [State.runRequest, State.isPacer]

/-- A settled station stands in the first of lines 1 to 6 that holds, or in the state of lines 7 to 9. -/
theorem State.Settled.state_eq {s : State} (h : s.Settled) : s.drive.state = s.upperTier.getD s.movingTier :=
  h.symm.trans s.settledState_upper

/-- The states of lines 1 to 6 are none of those of lines 7 to 9. -/
theorem State.upperTier_not_moving {s : State} {x : DriveState} (h : s.upperTier = some x) :
    x ≠ .wait ∧ x ≠ .run ∧ x ≠ .held := by
  unfold State.upperTier at h
  split_ifs at h <;> cases h <;> exact ⟨nofun, nofun, nofun⟩

/-- In WAIT, RUN and HELD lines 7 to 9 decide. -/
theorem State.Settled.upperTier_none {s : State} (h : s.Settled)
    (moving : s.drive.state = .wait ∨ s.drive.state = .run ∨ s.drive.state = .held) : s.upperTier = none := by
  cases tier : s.upperTier with
  | none => rfl
  | some x =>
    obtain ⟨notWait, notRun, notHeld⟩ := s.upperTier_not_moving tier
    have here : s.drive.state = x := by rw [h.state_eq, tier]; rfl
    rw [here] at moving
    exact absurd moving (by simp [notWait, notRun, notHeld])

/-- In every other state one of lines 1 to 6 holds. -/
theorem State.Settled.upperTier_some {s : State} (h : s.Settled) (wait : s.drive.state ≠ .wait)
    (run : s.drive.state ≠ .run) (held : s.drive.state ≠ .held) : s.upperTier = some s.drive.state := by
  cases tier : s.upperTier with
  | none =>
    have here := h.state_eq
    rw [tier, Option.getD_none] at here
    rcases s.movingTier_cases with moving | moving | moving
    · exact absurd (here.trans moving) held
    · exact absurd (here.trans moving) run
    · exact absurd (here.trans moving) wait
  | some x => rw [h.state_eq, tier]; rfl

/-- A change that lines 1 to 6 do not read, at a settled station: lines 7 to 9 decide anew in WAIT, RUN and HELD, and
every other state stays. -/
theorem State.Settled.settledState_of_upper {s t : State} (h : s.Settled) (same : t.upperTier = s.upperTier) :
    t.settledState = if s.drive.state = .wait ∨ s.drive.state = .run ∨ s.drive.state = .held then t.movingTier
      else s.drive.state := by
  rw [t.settledState_upper, same]
  split
  case isTrue moving => rw [h.upperTier_none moving]; rfl
  case isFalse stays =>
    simp only [not_or] at stays
    rw [h.upperTier_some stays.1 stays.2.1 stays.2.2]; rfl

/-! ### What a decision leaves alone -/

/-- Two relations that every decision keeps, kept together. -/
theorem Quiet.and {R S : State → State → Prop} (q : Quiet R) (r : Quiet S) : Quiet (fun s t => R s t ∧ S s t) where
  refl s := ⟨q.refl s, r.refl s⟩
  trans h k := ⟨q.trans h.1 k.1, r.trans h.2 k.2⟩
  halt s x := ⟨q.halt s x, r.halt s x⟩
  claim s x p h := ⟨q.claim s x p h, r.claim s x p h⟩
  emptied s := ⟨q.emptied s, r.emptied s⟩
  line s x h := ⟨q.line s x h, r.line s x h⟩
  pace s x h k := ⟨q.pace s x h k, r.pace s x h k⟩
  choices s x := ⟨q.choices s x, r.choices s x⟩
  census s t c b h k := ⟨q.census s t c b h k, r.census s t c b h k⟩
  transition s d h k := ⟨q.transition s d h k, r.transition s d h k⟩

/-- Two loose relations, kept together. -/
theorem Loose.and {R S : State → State → Prop} (q : Loose R) (r : Loose S) : Loose (fun s t => R s t ∧ S s t) where
  toQuiet := q.toQuiet.and r.toQuiet
  holds s x := ⟨q.holds s x, r.holds s x⟩

/-- What an adoption leaves alone: the outer blocks, the tallies, and of each line its counters, state and quiet timer. -/
def State.Outlasts (s t : State) : Prop := s.SameOuter t ∧ s.SameTallies t ∧ s.line.SameLines t.line

/-- What a decision leaves alone beside that: the order in force and the bend. -/
def State.Undisturbed (s t : State) : Prop := s.Outlasts t ∧ s.SameOrders t ∧ s.SameBend t

theorem State.Outlasts.loud : Loud State.Outlasts where
  toLoose := ⟨State.SameOuter.quiet.and (State.SameTallies.quiet.and State.sameLines_quiet), fun s x =>
    ⟨State.SameOuter.loud.holds s x, State.SameTallies.loud.holds s x, State.sameLines_loud.holds s x⟩⟩
  orders s x := ⟨State.SameOuter.loud.orders s x, State.SameTallies.loud.orders s x, State.sameLines_loud.orders s x⟩
  dwell s := ⟨State.SameOuter.loud.dwell s, State.SameTallies.loud.dwell s, State.sameLines_loud.dwell s⟩

theorem State.Undisturbed.loose : Loose State.Undisturbed :=
  State.Outlasts.loud.toLoose.and (State.SameOrders.loose.and State.SameBend.loose)

theorem State.Undisturbed.quiet : Quiet State.Undisturbed := State.Undisturbed.loose.toQuiet

/-- The five facts as the statements list them. -/
theorem State.Undisturbed.facts {s t : State} (h : s.Undisturbed t) :
    s.SameOuter t ∧ s.SameOrders t ∧ s.SameBend t ∧ s.SameTallies t ∧ s.SameLines t := by
  obtain ⟨⟨outer, tallies, lines⟩, orders, bend⟩ := h
  exact ⟨outer, orders, bend, tallies, .of lines⟩

/-! ### A transition, field by field -/

theorem DriveControl.setLamp_group (d : DriveControl) (x : DriveState) (c : Option OfflineCause) :
    (d.setLamp x c).lamp = decide (x = .halted ∨ x = .offline ∧ c ≠ none) ∧ (d.setLamp x c).blinkPhase = 0
    ∧ (d.setLamp x c).blinkTimer = if x = .offline ∧ c ≠ none then some 5 else none := by
  cases x <;> cases c <;> exact ⟨rfl, rfl, rfl⟩

/-- The lamp and its blink group at a transition (R22). -/
theorem State.transition_blink (s : State) (new : DriveState) :
    (s.transition new).drive.lamp = decide (new = .halted ∨ new = .offline ∧ s.loader.offlineCause ≠ none)
    ∧ (s.transition new).drive.blinkPhase = 0
    ∧ (s.transition new).drive.blinkTimer =
      if new = .offline ∧ s.loader.offlineCause ≠ none then some 5 else none := by
  simp only [State.transition, stageLamp_drive, State.setDrive_drive, stageBlocks_loader, stageStatus_loader,
    stageMuster_loader, stageContactorOn_loader, stagePace_loader, stageEmptying_loader, stageLoop_loader,
    stageDwell_loader, stageContactorOff_loader]
  exact DriveControl.setLamp_group _ new s.loader.offlineCause

/-- Drive Control at a transition, whole. -/
theorem State.transition_drive (s : State) (new : DriveState) : (s.transition new).drive =
    { state := new
      runOutput := if new = .run then true else if s.drive.state = .run then false else s.drive.runOutput
      direction := if new = .dwell then s.orders.direction else s.drive.direction
      rest := if s.drive.state = .run then .resting 10 else s.drive.rest
      dwellTimer := if new = .dwell then some (10 * s.config.reversalDwell.toNat)
        else if s.drive.state = .dwell then none else s.drive.dwellTimer
      lamp := decide (new = .halted ∨ new = .offline ∧ s.loader.offlineCause ≠ none)
      blinkPhase := 0
      blinkTimer := if new = .offline ∧ s.loader.offlineCause ≠ none then some 5 else none } := by
  obtain ⟨lamp, phase, timer⟩ := s.transition_blink new
  have state := s.transition_drive_state new
  have output := s.transition_runOutput new
  have direction := s.transition_direction new
  have rest := s.transition_rest new
  have dwell := s.transition_dwellTimer new
  generalize (s.transition new).drive = d at *
  cases d
  rw [DriveControl.mk.injEq]
  exact ⟨state, output, direction, rest, dwell, lamp, phase, timer⟩

/-- The Stride Monitor's own part of a transition between states after the census (R65): the retry pause alone. -/
theorem StrideMonitor.atTransition_moving (m : StrideMonitor) (old : DriveState) {new : DriveState}
    (moving : new.isFollowing = true ∨ new = .muster) :
    m.atTransition old new = if old = .stalled then { m with retryPause := none } else m := by
  rcases moving with moving | rfl
  · cases new <;> cases moving <;> simp [StrideMonitor.atTransition]
  · simp [StrideMonitor.atTransition]

/-- Between those states the Sensor Port does nothing of its own (R53, R54). -/
theorem SensorPort.atTransition_moving (p : SensorPort) {new : DriveState}
    (moving : new.isFollowing = true ∨ new = .muster) : p.atTransition new = p := by
  rcases moving with moving | rfl
  · cases new <;> cases moving <;> simp [SensorPort.atTransition]
  · simp [SensorPort.atTransition]

end Sys2Proof.Machine
end

section
/-! Proofs of the statements on the timers of Drive Control and the census (O10, O11, O39, O40): the contactor rest, the
dwell, the census with its evaluation, and the muster timer. -/

open Sys2Proof Sys2Proof.Machine Host

namespace Sys2Proof.Machine

/-! ### Changes that no decision reads -/

theorem State.Undisturbed.setDrive (s : State) {d : DriveControl} (direction : d.direction = s.drive.direction) :
    s.Undisturbed (s.setDrive d) :=
  ⟨⟨⟨rfl, rfl, rfl, rfl, rfl⟩, ⟨rfl, rfl, rfl, rfl, rfl, rfl⟩, .refl _⟩, ⟨rfl, rfl, rfl, rfl, rfl, rfl⟩, ⟨rfl, direction⟩⟩

theorem State.Undisturbed.trans {s t u : State} (h : s.Undisturbed t) (k : t.Undisturbed u) : s.Undisturbed u :=
  State.Undisturbed.quiet.trans h k

/-- What the entry to a following state `x` leaves: the transition, with the LAG reason reported (R35). -/
structure State.Moved (s t : State) (x : DriveState) : Prop where
  drive       : t.drive = (s.transition x).drive
  stride      : t.stride = (s.transition x).stride
  pace        : t.pace = if s.isPacer = true then { s.pace with running := decide (x = .wait ∨ x = .run) } else s.pace
  status      : t.line.statusSlot = true
  transmitter : t.line.transmitter = s.line.transmitter
  reasons     : t.claim.reasons = s.claim.reasons.put .lag (s.governor.lagMark && !s.isPacer)
  announced   : t.claim.announced = s.claim.announced
  holds       : t.holds = s.holds
  halt        : t.halt = s.halt
  sensor      : t.sensor = s.sensor
  orders      : s.drive.state ≠ .muster → t.orders = s.orders

/-- A following state is none of those that empty, open or close anything. -/
theorem DriveState.following_ne {x : DriveState} (following : x.isFollowing = true) :
    x ≠ .offline ∧ x ≠ .idle ∧ x ≠ .dwell ∧ x ≠ .muster ∧ x ≠ .halted := by
  cases x <;> cases following <;> exact ⟨nofun, nofun, nofun, nofun, nofun⟩

theorem State.moved (s : State) {x : DriveState} (following : x.isFollowing = true) :
    s.Moved (s.transition x).reportLag x := by
  obtain ⟨offline, idle, dwell, muster, halted⟩ := DriveState.following_ne following
  have governor : (s.transition x).governor = s.governor := by rw [State.transition_governor, if_neg dwell]
  have pacer : (s.transition x).isPacer = s.isPacer := State.isPacer_congr (State.transition_loader s x)
  have presents : (s.transition x).reportLag
      = (s.transition x).reportReason .lag (s.governor.lagMark && !s.isPacer) := by
    rw [State.reportLag, governor, pacer, State.isFollowing, State.transition_drive_state, following, Bool.and_true]
  have line : (s.transition x).line = { s.line with statusSlot := true } := by
    rw [State.transition_line, if_neg offline, if_neg (not_or.mpr ⟨idle, halted⟩)]
  have claim : (s.transition x).claim = s.claim := by
    rw [State.transition_claim, if_neg (by simp [idle, halted, offline])]
  obtain ⟨-, -, -, -, -, -, -, -, -, -, transmitter, status, -⟩ :=
    reportReason_claim (s.transition x) .lag (s.governor.lagMark && !s.isPacer)
  have only := ClaimOnly.report (s.transition x) .lag (s.governor.lagMark && !s.isPacer)
  rw [presents]
  exact {
    drive := only.drive
    stride := only.stride
    pace := by rw [only.pace, State.transition_pace]
    status := status (by rw [line])
    transmitter := by rw [transmitter, line]
    reasons := by rw [report_reasons, claim]
    announced := by rw [only.announced, claim]
    holds := by rw [only.holds, State.transition_holds, if_neg (by simp [idle, halted, offline])]
    halt := by rw [only.halt, State.transition_halt, if_neg (by simp [offline, halted]), if_neg fun k => idle k.1]
    sensor := by rw [only.sensor, State.transition_sensor, SensorPort.atTransition_moving _ (.inl following)]
    orders := fun other => by rw [only.orders, State.transition_orders, if_neg muster, if_neg other] }

/-- A settling that enters a following state, with no lead beyond X. -/
theorem settle_moves {s : State} {x : DriveState} (calm : s.leadBeyondHalt = false) (goes : s.settledState = x)
    (new : x ≠ s.drive.state) (following : x.isFollowing = true) : s.Moved s.settle x := by
  rw [settle_calm calm (goes ▸ new), goes, if_pos following]
  exact s.moved following

/-- A station that moves from WAIT to RUN switches its contactor on. -/
theorem State.Moved.drive_of_wait {s t : State} (h : s.Moved t .run) (wait : s.drive.state = .wait) : t.drive =
    { s.drive with state := .run, runOutput := true, lamp := false, blinkPhase := 0, blinkTimer := none } := by
  rw [h.drive, State.transition_drive, wait]
  simp

theorem State.Moved.stride_of_wait {s t : State} (h : s.Moved t .run) (wait : s.drive.state = .wait) :
    t.stride = s.stride.switchOn s.config := by
  rw [h.stride, State.transition_stride, StrideMonitor.atTransition_moving _ _ (.inl rfl), wait]
  simp

/-! ### The contactor rest -/

/-- The settled state once the contactor has rested: RUN in WAIT with the request present, else the state held. -/
theorem rested_settledState {s : State} (d : s.DriveInv) (resting : s.drive.rest ≠ .rested) :
    (s.setDrive { s.drive with rest := .rested }).settledState
      = if s.drive.state = .wait ∧ s.runRequest = true then .run else s.drive.state := by
  have upper : (s.setDrive { s.drive with rest := .rested }).upperTier = s.upperTier := rfl
  have moving : (s.setDrive { s.drive with rest := .rested }).movingTier =
      if s.holds.isEmpty = false then .held else if s.runRequest = true ∧ RestTimer.rested = .rested then .run
      else .wait := State.movingTier_eq _
  have notRun : s.drive.state ≠ .run := fun running => resting (run_rested d running).2
  rw [d.settled.settledState_of_upper upper, moving]
  by_cases wait : s.drive.state = .wait
  · rw [if_pos (.inl wait), moving_empty d (.inl wait), if_neg nofun, wait]
    simp
  · by_cases held : s.drive.state = .held
    · rw [if_pos (.inr (.inr held)), held_nonempty d held, if_pos rfl, if_neg fun k => wait k.1, held]
    · rw [if_neg (by simp [wait, notRun, held]), if_neg fun k => wait k.1]

/-- Settles O10: settling after the rest either moves WAIT to RUN or does nothing. -/
theorem restEndSettles : Obligations.RestEndSettles := by
  intro s d noReset due
  have resting : s.drive.rest ≠ .rested := fun rested => absurd (due.symm.trans rested) nofun
  have goes := rested_settledState d resting
  refine ⟨_, if_pos ⟨noReset, due⟩, fun stays => ?stays, fun ⟨wait, request⟩ calm => ?runs⟩
  case stays =>
    rw [if_neg stays] at goes
    rw [settle_same goes]
    rfl
  case runs =>
    rw [if_pos ⟨wait, request⟩] at goes
    have moved := settle_moves (s := s.setDrive { s.drive with rest := .rested }) calm goes
      (fun same => absurd (same.trans wait) nofun) rfl
    have alike : s.Undisturbed (s.setDrive { s.drive with rest := .rested }) :=
      .setDrive s (d := { s.drive with rest := .rested }) rfl
    obtain ⟨outer, orders, bend, tallies, lines⟩ := (alike.trans (State.Undisturbed.quiet.settle _)).facts
    have drive := moved.drive_of_wait wait
    have stride := moved.stride_of_wait wait
    have orders' := moved.orders (fun same => absurd (wait.symm.trans same) nofun)
    obtain ⟨-, -, pace, status, transmitter, reasons, announced, holds, halt, sensor, -⟩ := moved
    generalize (s.setDrive { s.drive with rest := .rested }).settle = t at *
    rw [drive, stride]
    exact ⟨rfl, rfl, rfl, rfl, rfl, rfl, rfl, rfl, rfl, rfl, rfl, rfl, rfl, rfl, status, transmitter,
      pace, outer, orders, bend, tallies, lines, reasons, announced, holds, halt, sensor, orders'⟩

/-! ### The census -/

/-- The transition from DWELL to MUSTER, whole. -/
theorem State.transition_muster_of_dwell {s : State} (dwell : s.drive.state = .dwell) : s.transition .muster =
    { s with
      drive := { s.drive with state := .muster, dwellTimer := none, lamp := false, blinkPhase := 0, blinkTimer := none }
      orders := { s.orders with musterTimer := some (10 * s.config.musterTime.toNat), counting := true }
      line := { s.line with statusSlot := true }
      pace := if s.isPacer = true then { s.pace with running := false } else s.pace } := by
  have drive := s.transition_drive .muster
  have orders := s.transition_orders .muster
  have line := s.transition_line .muster
  have pace := s.transition_pace .muster
  have halt := s.transition_halt .muster
  have stride := s.transition_stride .muster
  have sensor := s.transition_sensor .muster
  have governor := s.transition_governor .muster
  have holds := s.transition_holds .muster
  have claim := s.transition_claim .muster
  rw [StrideMonitor.atTransition_moving _ _ (.inr rfl)] at stride
  rw [SensorPort.atTransition_moving _ (.inr rfl)] at sensor
  simp only [dwell, reduceCtorEq, or_self, false_and, if_false, if_true, decide_false] at *
  have pending := s.transition_pending .muster
  have resets := s.transition_resets .muster
  have time := s.transition_localTime .muster
  have loader := s.transition_loader .muster
  have roster := s.transition_roster .muster
  have choices := s.transition_choices .muster
  generalize s.transition .muster = t at *
  cases t
  rw [State.mk.injEq]
  exact ⟨pending, resets, time, drive, governor, sensor, stride, holds, claim, pace, roster, orders, halt, line, loader,
    choices⟩

/-- The census after an evaluation that no condition blocks (R131): complete, with its state and its period. -/
theorem evaluate_complete {s : State} (top : s.topTier = none) (muster : s.drive.state = .muster)
    (counting : s.orders.counting = true) (clear : s.censusBlocker = none) :
    s.evaluateCensus.drive.state = s.stateAfterMuster ∧ s.evaluateCensus.orders.musterTimer = none
    ∧ s.evaluateCensus.orders.counting = false ∧ s.evaluateCensus.orders.blocker = none
    ∧ s.evaluateCensus.line.statusSlot = true
    ∧ (s.isPacer = true → ∃ r, s.evaluateCensus.pace =
        { s.pace with running := r, position := 0, pace := s.pace.pendingPace.getD s.pace.pace, pendingPace := none
                      onLength := s.onLengthAt (s.pace.pendingPace.getD s.pace.pace)
                      request := decide (0 < s.onLengthAt (s.pace.pendingPace.getD s.pace.pace)) }) := by
  obtain ⟨state, timer, idle, blocker, pace⟩ := completeCensus_state top muster
  rw [evaluate_none counting clear]
  exact ⟨state, timer, idle, blocker, completeCensus_status top muster, pace⟩

/-- The top tier at the end of a dwell holds nothing. -/
theorem State.DriveInv.topTier_none {s : State} (d : s.DriveInv)
    (moving : s.drive.state = .dwell ∨ s.drive.state = .muster) : s.topTier = none := by
  rcases moving with dwell | muster
  · exact d.settled.topTier_none (by rw [dwell]; decide) (by rw [dwell]; decide) (by rw [dwell]; decide)
  · exact d.settled.topTier_none (by rw [muster]; decide) (by rw [muster]; decide) (by rw [muster]; decide)

/-- A dwell timer that has stopped stays so through every decision. -/
theorem dwellStopped_quiet : Quiet (fun s t : State => s.drive.dwellTimer = none → t.drive.dwellTimer = none) where
  refl _ := id
  trans h k := k ∘ h
  halt _ _ := id
  claim _ _ _ _ := id
  emptied _ := id
  line _ _ _ := id
  pace _ _ _ _ := id
  choices _ _ := id
  census _ _ _ _ _ _ := id
  transition s d notDwell _ := fun stopped => by rw [State.transition_dwellTimer, if_neg notDwell, stopped, ite_self]

/-- Settles O11: the whole transition to MUSTER, then one evaluation of the census. -/
theorem dwellExpiryEntersMuster : Obligations.DwellExpiryEntersMuster := by
  intro s d dwell due
  let u : State := s.setDrive { s.drive with dwellTimer := none }
  have top : u.topTier = none := d.topTier_none (.inl dwell)
  have entry := State.transition_muster_of_dwell (s := u) dwell
  have topAfter : (u.transition .muster).topTier = none := (u.transition_topTier .muster).trans top
  have blocker : (u.transition .muster).censusBlocker = s.censusBlocker := by
    rw [entry]; exact censusBlocker_congr rfl rfl rfl rfl rfl rfl
  have exits : (u.transition .muster).stateAfterMuster = s.stateAfterMuster := by
    rw [entry]
    exact stateAfterMuster_congr rfl rfl rfl (by dsimp only; split <;> rfl) (by dsimp only; split <;> rfl) Iff.rfl
  have muster : (u.transition .muster).drive.state = .muster := u.transition_drive_state .muster
  have counting : (u.transition .muster).orders.counting = true := by rw [entry]
  have alike : s.Undisturbed u.enterMuster :=
    (State.Undisturbed.setDrive s (d := { s.drive with dwellTimer := none }) rfl).trans
      (State.Undisturbed.quiet.enterMuster u)
  have status : u.enterMuster.line.statusSlot = true := by
    cases blocked : s.censusBlocker with
    | some b => rw [State.enterMuster, evaluate_some counting (blocker.trans blocked), entry]; rfl
    | none => exact (evaluate_complete topAfter muster counting (blocker.trans blocked)).2.2.2.2.1
  obtain ⟨outer, orders, bend, tallies, lines⟩ := alike.facts
  refine ⟨_, (if_pos ⟨dwell, due⟩).trans (if_pos top), dwellStopped_quiet.enterMuster u rfl, outer, orders, bend, tallies,
    lines, status, fun b blocked => ?_, fun clear => ?_⟩
  · rw [State.enterMuster, evaluate_some counting (blocker.trans blocked), entry]
    exact ⟨rfl, rfl, rfl, rfl, rfl, rfl, rfl, rfl, rfl⟩
  · obtain ⟨state, timer, idle, none, -⟩ := evaluate_complete topAfter muster counting (blocker.trans clear)
    exact ⟨state.trans exits, timer, idle, none⟩

/-- The condition of R130 that `positionMustered` computes, for a position that counts. -/
theorem blocker_position {s : State} {p : Position} (first : allPositions.find? (fun p =>
    decide (p.toNat ≤ s.towers) && decide (p ≠ s.own) && !s.positionMustered p) = some p) :
    (p.toNat ≤ s.towers ∧ p ≠ s.own) ∧ s.positionMustered p ≠ true
    ∧ ∀ q : Position, q.toNat < p.toNat → q.toNat ≤ s.towers ∧ q ≠ s.own → s.positionMustered q = true := by
  obtain ⟨fails, place, bound, here, before⟩ := List.find?_eq_some_iff_getElem.mp first
  have inRange : ∀ i : Nat, i < allPositions.length → i < 32 := fun i h => by simpa [allPositions] using h
  rw [allPositions_get place (inRange place bound)] at here
  simp only [Bool.and_eq_true, decide_eq_true_eq, Bool.not_eq_true'] at fails
  refine ⟨⟨fails.1.1, fails.1.2⟩, by simp [fails.2], fun q less counted => ?_⟩
  have index : p.toNat = place := by rw [← here, BitVec.toNat_ofNat]; exact Nat.mod_eq_of_lt (inRange place bound)
  have earlier := before q.toNat (index ▸ less)
  rw [allPositions_get q.toNat q.isLt, BitVec.ofNat_toNat, BitVec.setWidth_eq] at earlier
  simpa [counted.1, counted.2] using earlier

/-- Settles O39: the blocker by its three conditions in their order, and the evaluation by its three cases. -/
theorem censusAndItsEvaluation : Obligations.CensusAndItsEvaluation := by
  refine ⟨fun s => ?blocker, fun s d => ⟨fun idle => ?idle, fun b counting blocked => ?blocked,
    fun muster clear => ?complete⟩⟩
  case blocker =>
    intro onOrder counted
    have known : s.ready = true ↔ s.own.toNat = s.towers ∨ s.governor.lead ≠ none := by
      rw [← Bool.not_eq_false, not_congr (ready_iff s)]; tauto
    have order (p) : s.positionMustered p = true ↔ onOrder p := mustered_iff s p
    have position (p) (at' : s.censusBlocker = some (.position p)) : allPositions.find? (fun p =>
        decide (p.toNat ≤ s.towers) && decide (p ≠ s.own) && !s.positionMustered p) = some p := by
      rcases blocker_cases s with ⟨-, found⟩ | ⟨-, -, found⟩ | ⟨-, -, found⟩ <;> rw [found] at at'
      · cases at'
      · cases at'
      · obtain ⟨q, first, same⟩ := Option.map_eq_some_iff.mp at'
        cases same
        exact first
    refine ⟨?loop, ?own, fun p at' => ?position, ?none⟩
    case position =>
      obtain ⟨counts, fails, before⟩ := blocker_position (position p at')
      exact ⟨counts, fun on => fails ((order p).mpr on), fun q less counts => (order q).mp (before q less counts)⟩
    case loop =>
      rcases blocker_cases s with ⟨sense, found⟩ | ⟨sense, -, found⟩ | ⟨sense, -, found⟩ <;> rw [found, sense] <;> simp
    case own =>
      rw [← ready_iff]
      rcases blocker_cases s with ⟨sense, found⟩ | ⟨sense, ready, found⟩ | ⟨sense, ready, found⟩
      · simp [found, sense]
      · simp [found, sense, ready]
      · simp [found, sense, ready]
    case none =>
      rw [← known]
      rcases blocker_cases s with ⟨sense, found⟩ | ⟨sense, ready, found⟩ | ⟨sense, ready, found⟩
      · simp [found, sense]
      · simp [found, sense, ready]
      · rw [found, Option.map_eq_none_iff, List.find?_eq_none]
        have all (p) : p ∈ allPositions := mem_allPositions p
        simp only [all, sense, ready, true_and, forall_const, ← order, counted]
        refine forall_congr' fun p => ?_
        simp only [Bool.and_eq_true, decide_eq_true_eq, Bool.not_eq_true']
        cases s.positionMustered p <;> simp
  case idle => rw [State.evaluateCensus, idle]; rfl
  case blocked => exact evaluate_some counting blocked
  case complete =>
    obtain ⟨state, timer, idle, none, status, pace⟩ :=
      evaluate_complete (d.topTier_none (.inr muster)) muster (counting_of_muster d muster) clear
    obtain ⟨outer, orders, bend, tallies, lines⟩ := (State.Undisturbed.quiet.evaluateCensus s).facts
    refine ⟨state, timer, idle, none, status, fun pacer => ?_, outer, orders, bend, tallies, lines⟩
    obtain ⟨r, period⟩ := pace pacer
    rw [period]
    exact ⟨rfl, rfl, rfl, rfl, rfl⟩

/-- Settles O40: the halt is raised on the station whose census has just stopped. -/
theorem musterTimeoutHalts : Obligations.MusterTimeoutHalts := by
  intro s d muster due
  let u : State := s.setOrders { s.orders with musterTimer := none, counting := false, blocker := none }
  have halts := haltsWith_raise u .musterTimeout (some s.own) d.contactor.1 (decide_eq_true muster)
  have idle := halts.muster muster
  obtain ⟨outer, orders, bend, tallies, lines⟩ := (State.Undisturbed.quiet.trans
    (State.Undisturbed.quiet.census s none false none nofun (absurd rfl))
    (State.Undisturbed.quiet.raiseHalt u .musterTimeout (some s.own))).facts
  rw [show u.drive.state = .muster from muster] at halts
  exact ⟨_, if_pos ⟨muster, due⟩,
    haltsWith_congr halts id rfl rfl rfl rfl rfl (fun _ => rfl) rfl (fun _ => rfl), idle.1, idle.2.1, idle.2.2,
    outer, orders, bend, tallies, lines⟩

end Sys2Proof.Machine
end

section
/-! Proofs of the statements on the wheel (O22, O23, O24, O25): what a pulse keeps, the two contactor views, a stall
taken, and the end of a retry pause. -/

open Sys2Proof Sys2Proof.Machine Host

namespace Sys2Proof.Machine

/-! ### What a pulse leaves alone -/

/-- The five fields of the stride monitor that no class of pulse changes once the filter has accepted it. -/
def StrideMonitor.SameFilter (m n : StrideMonitor) : Prop :=
  m.strideCount = n.strideCount ∧ m.filterAsserted = n.filterAsserted ∧ m.wheelHigh = n.wheelHigh
    ∧ m.runTime = n.runTime ∧ m.stallEvents = n.stallEvents

theorem StrideMonitor.SameFilter.refl (m : StrideMonitor) : m.SameFilter m := ⟨rfl, rfl, rfl, rfl, rfl⟩

theorem StrideMonitor.SameFilter.trans {a b c : StrideMonitor} (h : a.SameFilter b) (k : b.SameFilter c) :
    a.SameFilter c := by
  obtain ⟨count, filter, high, time, events⟩ := k
  obtain ⟨count', filter', high', time', events'⟩ := h
  exact ⟨count'.trans count, filter'.trans filter, high'.trans high, time'.trans time, events'.trans events⟩

/-- What the accepted pulse and the count of failed exchanges keep through every decision. -/
def State.SamePulse (s t : State) : Prop :=
  t.stride.SameFilter s.stride ∧ t.sensor.failureTotal = s.sensor.failureTotal

theorem State.SamePulse.quiet : Quiet State.SamePulse where
  refl s := ⟨.refl _, rfl⟩
  trans h k := ⟨k.1.trans h.1, k.2.trans h.2⟩
  halt _ _ := ⟨.refl _, rfl⟩
  claim _ _ _ _ := ⟨.refl _, rfl⟩
  emptied _ := ⟨.refl _, rfl⟩
  line _ _ _ := ⟨.refl _, rfl⟩
  pace _ _ _ _ := ⟨.refl _, rfl⟩
  choices _ _ := ⟨.refl _, rfl⟩
  census _ _ _ _ _ _ := ⟨.refl _, rfl⟩
  transition s d _ _ := ⟨transition_filter s d, by
    rw [State.transition_sensor]; exact (SensorPort.atTransition_counts _ _).1⟩

/-- What a pulse or a stall leaves alone: the outer blocks, the order in force, the bend, and the lines. -/
def State.Unturned (s t : State) : Prop := (s.SameOuter t ∧ s.line.SameLines t.line) ∧ s.SameOrders t ∧ s.SameBend t

theorem State.Unturned.quiet : Quiet State.Unturned :=
  (State.SameOuter.quiet.and State.sameLines_quiet).and (State.SameOrders.quiet.and State.SameBend.quiet)

theorem State.Unturned.setStride (s : State) (m : StrideMonitor) : s.Unturned (s.setStride m) :=
  ⟨⟨⟨rfl, rfl, rfl, rfl, rfl⟩, .refl _⟩, ⟨rfl, rfl, rfl, rfl, rfl, rfl⟩, ⟨rfl, rfl⟩⟩

theorem State.Unturned.facts {s t : State} (h : s.Unturned t) :
    s.SameOuter t ∧ s.SameOrders t ∧ s.SameBend t ∧ s.SameLines t := by
  obtain ⟨⟨outer, lines⟩, orders, bend⟩ := h
  exact ⟨outer, orders, bend, .of lines⟩

/-- A pulse past the filter keeps both, in either contactor view. -/
def State.PulseKept (s t : State) : Prop := s.Unturned t ∧ s.SamePulse t

theorem State.PulseKept.quiet : Quiet State.PulseKept := State.Unturned.quiet.and State.SamePulse.quiet

theorem State.PulseKept.setStride (s : State) {m : StrideMonitor} (h : m.SameFilter s.stride) :
    s.PulseKept (s.setStride m) :=
  ⟨.setStride s m, h, rfl⟩

theorem pulseOn_kept (u : State) : u.PulseKept u.pulseOn := by
  have counted : u.PulseKept (u.setStride (u.stride.segmentPulse u.config)) :=
    .setStride u ⟨rfl, rfl, rfl, rfl, rfl⟩
  rw [State.pulseOn]
  split
  · refine State.PulseKept.quiet.trans counted (State.PulseKept.quiet.trans ?_ (State.PulseKept.quiet.reportStall _))
    exact .setStride _ ⟨rfl, rfl, rfl, rfl, rfl⟩
  · exact counted

theorem pulseOff_kept (u : State) : u.PulseKept u.pulseOff := by
  rw [State.pulseOff]
  split
  · exact State.PulseKept.quiet.refl u
  split
  · exact .setStride u ⟨rfl, rfl, rfl, rfl, rfl⟩
  · have counted : u.PulseKept (u.setStride u.stride.creepPulse) := .setStride u ⟨rfl, rfl, rfl, rfl, rfl⟩
    rw [State.creep]
    split
    · exact State.PulseKept.quiet.trans counted (State.PulseKept.quiet.raiseHalt _ _ _)
    · exact counted

/-- Settles O22: the filter, the step of the count, and the class of the pulse, which keeps both. -/
theorem wheelPulseStepsStrideCount : Obligations.WheelPulseStepsStrideCount := by
  refine fun s => ⟨fun ignored => if_pos ignored, fun running released => ?_⟩
  have accepted : ¬(s.inReset = true ∨ s.stride.filterAsserted = true) := by simp [running, released]
  let u := s.setStride (s.stride.acceptPulse s.drive.direction)
  by_cases active : u.active = true
  · have kept : u.PulseKept (if u.stride.contactorOn = true then u.pulseOn else u.pulseOff) := by
      split
      · exact pulseOn_kept u
      · exact pulseOff_kept u
    obtain ⟨unturned, ⟨count, filter, high, time, events⟩, failures⟩ := kept
    obtain ⟨outer, orders, bend, lines⟩ :=
      (State.Unturned.quiet.trans (State.Unturned.setStride s _) unturned).facts
    refine ⟨_, (if_neg accepted).trans (if_pos active), count, filter, high, time, events, failures, outer, orders, bend,
      lines, fun early => ?_⟩
    obtain ⟨passed, on⟩ := (active_iff u).mp active
    exact absurd early (not_or.mpr ⟨on, not_not.mpr passed⟩)
  · obtain ⟨outer, orders, bend, lines⟩ := (State.Unturned.setStride s (s.stride.acceptPulse s.drive.direction)).facts
    exact ⟨u, (if_neg accepted).trans (if_neg active), rfl, rfl, rfl, rfl, rfl, rfl, outer, orders, bend, lines,
      fun _ => rfl⟩

/-! ### The two contactor views -/

/-- The pulse at a station past its checks and outside OFFLINE goes to the mechanism of the contactor view. -/
theorem exec_wheelPulse_active {s : State} (running : s.inReset = false) (released : s.stride.filterAsserted = false)
    (active : s.active = true) : exec .wheelPulse s =
      .next (if s.stride.contactorOn = true then (s.setStride (s.stride.acceptPulse s.drive.direction)).pulseOn
        else (s.setStride (s.stride.acceptPulse s.drive.direction)).pulseOff) :=
  (if_neg (by simp [running, released])).trans (if_pos active)

theorem State.isCoast_iff (s : State) : s.isCoast = true ↔
    s.stride.coastWindow ≠ none ∧ s.stride.coastCount < s.config.coastAllowance.toNat := by
  rw [State.isCoast, Bool.and_eq_true, decide_eq_true_eq, Option.isSome_iff_ne_none]

/-- A station past its checks that is not OFFLINE and not HALTED is in IDLE or underway. -/
theorem DriveState.idle_or_underway {x : DriveState} (on : x ≠ .offline) (free : x ≠ .halted) :
    (decide (x = .idle) || x.isUnderway) = true := by
  cases x
  case offline => exact absurd rfl on
  case halted => exact absurd rfl free
  all_goals rfl

/-- The fourth pulse of a segment is a stall clear (R66). -/
theorem pulseOn_fourth {u : State} (fourth : u.stride.segmentPulses = 3) :
    u.pulseOn.stride = { u.stride.segmentPulse u.config with consecutiveStalls := 0, stallMark := false }
    ∧ u.pulseOn.claim.reasons = u.claim.reasons.put .stall false ∧ u.pulseOn.drive = u.drive
    ∧ u.pulseOn.halt = u.halt ∧ u.pulseOn.holds = u.holds ∧ u.pulseOn.sensor = u.sensor ∧ u.pulseOn.orders = u.orders
    ∧ u.pulseOn.pace = u.pace := by
  have clears : u.pulseOn = (u.setStride { u.stride.segmentPulse u.config with
      consecutiveStalls := 0, stallMark := false }).reportReason .stall false := by
    rw [State.pulseOn, if_pos fourth]
    rfl
  obtain ⟨reasons, -, holds, halt, sensor, orders, stride, pace, drive, -⟩ := reportReason_claim
    (u.setStride { u.stride.segmentPulse u.config with consecutiveStalls := 0, stallMark := false }) .stall false
  rw [clears]
  exact ⟨stride, reasons, drive, halt, holds, sensor, orders, pace⟩

theorem pulseOff_unclassed {u : State} (unclassed : u.config.stalling = .off) : u.pulseOff = u := if_pos unclassed

theorem pulseOff_coast {u : State} (classed : u.config.stalling ≠ .off)
    (coast : u.stride.coastWindow ≠ none ∧ u.stride.coastCount < u.config.coastAllowance.toNat) :
    u.pulseOff = u.setStride { u.stride with coastCount := u.stride.coastCount + 1 } :=
  (if_neg classed).trans (if_pos (u.isCoast_iff.mpr coast))

theorem pulseOff_creep {u : State} (classed : u.config.stalling ≠ .off)
    (creeps : ¬(u.stride.coastWindow ≠ none ∧ u.stride.coastCount < u.config.coastAllowance.toNat)) :
    u.pulseOff = u.creep :=
  (if_neg classed).trans (if_neg (mt u.isCoast_iff.mp creeps))

theorem creep_off_limit {u : State} (below : u.stride.creepCount.toNat ≠ u.config.creepLimit.toNat) :
    u.creep = u.setStride u.stride.creepPulse := if_neg below

theorem creep_at_limit {u : State} (limit : u.stride.creepCount.toNat = u.config.creepLimit.toNat) :
    u.creep = (u.setStride u.stride.creepPulse).raiseHalt .creep (some u.own) := if_pos limit

/-- Settles O23: the run segment with its stall clear, and the pulse outside it: unclassed, coast, creep or a halt. -/
theorem pulseByContactorView : Obligations.PulseByContactorView := by
  intro s d running released active
  have pulse := exec_wheelPulse_active running released active
  refine ⟨fun on => ?on, fun off => ?off⟩
  case on =>
    rw [if_pos on] at pulse
    refine ⟨_, pulse, ?_⟩
    by_cases fourth : s.stride.segmentPulses = 3
    · obtain ⟨stride, reasons, drive, halt, holds, sensor, orders, pace⟩ :=
        pulseOn_fourth (u := s.setStride (s.stride.acceptPulse s.drive.direction)) fourth
      generalize (s.setStride (s.stride.acceptPulse s.drive.direction)).pulseOn = t at *
      rw [if_pos fourth, if_pos fourth, if_pos fourth, stride]
      exact ⟨rfl, reasons, absurd fourth, drive, halt, holds, sensor, orders, pace⟩
    · rw [State.pulseOn,
        if_neg (show ¬(s.setStride (s.stride.acceptPulse _)).stride.segmentPulses = 3 from fourth)]
      simp only [if_neg fourth]
      exact ⟨rfl, rfl, fun _ => ⟨rfl, rfl⟩, rfl, rfl, rfl, rfl, rfl, rfl⟩
  case off =>
    rw [if_neg (by simp [off])] at pulse
    let u := s.setStride (s.stride.acceptPulse s.drive.direction)
    obtain ⟨t, effect⟩ : ∃ t, t = u.pulseOff := ⟨_, rfl⟩
    refine ⟨t, effect ▸ pulse, fun unclassed => ?_, fun classed coast => ?_, fun classed creeps below => ?_,
      fun classed creeps limit => ?_⟩
    · rw [effect, pulseOff_unclassed (u := u) unclassed]
      rfl
    · rw [effect, pulseOff_coast (u := u) classed coast]
      rfl
    · rw [effect, pulseOff_creep (u := u) classed creeps, creep_off_limit (u := u) below, ← satInc_byte, ← satInc_word]
      rfl
    · let v := u.setStride u.stride.creepPulse
      have halt : t = v.raiseHalt .creep (some s.own) :=
        effect.trans ((pulseOff_creep (u := u) classed creeps).trans (creep_at_limit (u := u) limit))
      have tallies : v.SameTallies t := by rw [halt]; exact State.SameTallies.quiet.raiseHalt v .creep (some s.own)
      obtain ⟨passed, on⟩ := (active_iff s).mp active
      rw [tallies.strideCount, ← satInc_byte, ← satInc_word]
      refine ⟨tallies.creepPulses, fun free => ?_, fun halted => ⟨_, halt.trans (if_pos halted), rfl⟩⟩
      rw [halt]
      exact haltsWith_raise v .creep (some s.own) d.contactor.1 (DriveState.idle_or_underway on free)

/-! ### Stalls and retries -/

/-- The monitor once a stall is counted, with the consecutive count `n` after it (R62, R63). -/
def StrideMonitor.stalled (m : StrideMonitor) (n : Nat) : StrideMonitor :=
  { m with stallTimer := none, stallEvents := satInc m.stallEvents, consecutiveStalls := n }

theorem takeStall_retry {s : State} (mode : s.config.stalling = .retry)
    (within : s.stride.consecutiveStalls + 1 ≤ s.config.retryLimit.toNat) :
    s.takeStall = (s.setStride (s.stride.stalled (s.stride.consecutiveStalls + 1))).retryStall := by
  rw [State.takeStall]
  simp only [State.config, State.setStride_loader, State.setStride_stride] at *
  rw [mode]
  exact if_pos within

/-- Past the retry limit and in HALT mode a stall is a STALL halt (R64). -/
theorem takeStall_halts {s : State} (halts : s.config.stalling = .halt
    ∨ s.config.stalling = .retry ∧ s.config.retryLimit.toNat < s.stride.consecutiveStalls + 1) :
    ∃ n, s.takeStall = (s.setStride (s.stride.stalled n)).raiseHalt .stall (some s.own) := by
  rw [State.takeStall]
  simp only [State.config, State.setStride_loader, State.setStride_stride] at *
  rcases halts with mode | ⟨mode, past⟩
  · rw [mode]
    exact ⟨s.stride.consecutiveStalls, rfl⟩
  · rw [mode]
    exact ⟨s.stride.consecutiveStalls + 1, if_neg (Nat.not_le.mpr past)⟩

theorem takeStall_off {s : State} (mode : s.config.stalling = .off) :
    s.takeStall = s.setStride (s.stride.stalled s.stride.consecutiveStalls) := by
  rw [State.takeStall]
  simp only [State.config, State.setStride_loader] at *
  rw [mode]
  rfl

/-- A retry in RUN enters STALLED, with LAG and STALL reported (R63). -/
theorem retry_moves {u : State} (top : u.topTier = none) (calm : u.leadBeyondHalt = false) :
    let v := u.setStride (u.stride.pause u.config)
    v.Moved (v.transition .stalled).reportLag .stalled ∧ u.retryStall = (v.transition .stalled).reportLag.reportStall := by
  intro v
  have following : (v.transition .stalled).isFollowing = true := by
    rw [State.isFollowing, State.transition_drive_state]; rfl
  have calm' : (v.transition .stalled).leadBeyondHalt = false := by
    rw [leadBeyond_congr (s := v) (by rw [State.transition_governor, if_neg (by decide)])]; exact calm
  refine ⟨v.moved rfl, ?_⟩
  rw [State.retryStall, State.enterStalled, if_pos (show v.topTier = none from top), followingEntry_calm following calm']

/-- What every decision leaves alone the entry to STALLED does. -/
theorem enterStalled_keeps {R : State → State → Prop} (q : Quiet R) (u : State) : R u u.enterStalled := by
  rw [State.enterStalled]
  split
  · exact q.trans (q.transition u .stalled nofun nofun) (q.followingEntry _)
  · exact q.settle u

theorem StrideMonitor.switchOff_stallTimer (m : StrideMonitor) (c : ConfigRecord) :
    (m.switchOff c).stallTimer = none := by
  rw [StrideMonitor.switchOff]
  split <;> rfl

theorem StrideMonitor.switchOff_stallMark (m : StrideMonitor) (c : ConfigRecord) :
    (m.switchOff c).stallMark = m.stallMark := by
  rw [StrideMonitor.switchOff]
  split <;> rfl

/-- The station after a stall retried: STALLED with its pause, the contactor off, and STALL presented (R61, R63). -/
structure State.Retried (s t : State) : Prop where
  state  : t.drive.state = .stalled
  output : t.drive.runOutput = false
  rest   : t.drive.rest = .resting 10
  stride : t.stride = ((s.stride.stalled (s.stride.consecutiveStalls + 1)).pause s.config).switchOff s.config
  status : t.line.statusSlot = true
  loader : t.loader = s.loader
  stall  : s.isPacer = false → t.claim.reasons.stall = true

theorem takeStall_retried {s : State} (d : s.DriveInv) (calm : s.leadBeyondHalt = false) (run : s.drive.state = .run)
    (mode : s.config.stalling = .retry) (within : s.stride.consecutiveStalls + 1 ≤ s.config.retryLimit.toNat) :
    s.Retried s.takeStall := by
  have top : s.topTier = none :=
    d.settled.topTier_none (by rw [run]; decide) (by rw [run]; decide) (by rw [run]; decide)
  obtain ⟨moved, retried⟩ :=
    retry_moves (u := s.setStride (s.stride.stalled (s.stride.consecutiveStalls + 1))) top calm
  rw [takeStall_retry mode within, retried]
  let v := s.setStride ((s.stride.stalled (s.stride.consecutiveStalls + 1)).pause s.config)
  change v.Moved (v.transition .stalled).reportLag .stalled at moved
  have loader : (v.transition .stalled).reportLag.loader = s.loader :=
    (ClaimOnly.report _ _ _).loader.trans (v.transition_loader .stalled)
  change s.Retried (v.transition .stalled).reportLag.reportStall
  generalize (v.transition .stalled).reportLag = w at *
  have drive := moved.drive.trans (v.transition_drive .stalled)
  have stride := moved.stride.trans (stalled_transition_stride v run)
  have only := ClaimOnly.report w .stall (w.stride.stallMark && w.isFollowing && !w.isPacer)
  obtain ⟨-, -, -, -, -, -, -, -, -, -, -, status, -⟩ :=
    reportReason_claim w .stall (w.stride.stallMark && w.isFollowing && !w.isPacer)
  have reason := report_reasons w .stall (w.stride.stallMark && w.isFollowing && !w.isPacer)
  have here : v.drive.state = .run := run
  rw [← State.reportStall] at only status reason
  exact {
    state := by rw [only.drive, drive]
    output := by rw [only.drive, drive, here]; rfl
    rest := by rw [only.drive, drive, here]; rfl
    stride := only.stride.trans stride
    status := status moved.status
    loader := only.loader.trans loader
    stall := fun follower => by
      rw [reason, stride, StrideMonitor.switchOff_stallMark, State.isFollowing, drive, State.isPacer_congr loader,
        follower]
      rfl }

/-- Whatever the mode, a stall leaves the outer blocks, the order, the bend and the lines alone. -/
theorem takeStall_unturned (s : State) : s.Unturned s.takeStall := by
  have changed (m : StrideMonitor) : s.Unturned (s.setStride m) := .setStride s m
  by_cases halts : s.config.stalling = .halt
      ∨ s.config.stalling = .retry ∧ s.config.retryLimit.toNat < s.stride.consecutiveStalls + 1
  · obtain ⟨n, taken⟩ := takeStall_halts halts
    rw [taken]
    exact State.Unturned.quiet.trans (changed _) (State.Unturned.quiet.raiseHalt _ _ _)
  cases mode : s.config.stalling with
  | off => rw [takeStall_off mode]; exact changed _
  | halt => exact absurd (.inl mode) halts
  | retry =>
    rw [takeStall_retry mode (Nat.not_lt.mp fun past => halts (.inr ⟨mode, past⟩)), State.retryStall]
    refine State.Unturned.quiet.trans (State.Unturned.quiet.trans
      (changed ((s.stride.stalled (s.stride.consecutiveStalls + 1)).pause s.config)) ?_)
      (State.Unturned.quiet.reportStall _)
    exact enterStalled_keeps State.Unturned.quiet _

/-- The stride monitor after a STALL halt (R61, R66). -/
theorem raise_stall_stride {u : State} (run : u.drive.state = .run) (o : Option Position) :
    (u.raiseHalt .stall o).stride = (u.stride.switchOff u.config).atTransition .run .halted := by
  rw [State.raiseHalt, if_neg (by rw [run]; decide), if_pos (by rw [run]; rfl), enterHalted_stride, if_pos run, run]

/-- Every stall in RUN is counted, and leaves its timer stopped (R62). -/
theorem takeStall_stride {s : State} (d : s.DriveInv) (calm : s.leadBeyondHalt = false) (run : s.drive.state = .run) :
    ∃ n, s.takeStall.stride.SameCounts (s.stride.stalled n) ∧ s.takeStall.stride.stallTimer = none := by
  by_cases halts : s.config.stalling = .halt
      ∨ s.config.stalling = .retry ∧ s.config.retryLimit.toNat < s.stride.consecutiveStalls + 1
  · obtain ⟨n, taken⟩ := takeStall_halts halts
    rw [taken, raise_stall_stride (u := s.setStride (s.stride.stalled n)) run]
    exact ⟨n, .trans (StrideMonitor.atTransition_counts _ _ _) (StrideMonitor.switchOff_counts _ _),
      (StrideMonitor.atTransition_stallTimer _ _ _).trans (StrideMonitor.switchOff_stallTimer _ _)⟩
  cases mode : s.config.stalling with
  | off => rw [takeStall_off mode]; exact ⟨_, ⟨rfl, rfl, rfl, rfl⟩, rfl⟩
  | halt => exact absurd (.inl mode) halts
  | retry =>
    have retried := takeStall_retried d calm run mode (Nat.not_lt.mp fun past => halts (.inr ⟨mode, past⟩))
    rw [retried.stride]
    exact ⟨s.stride.consecutiveStalls + 1, StrideMonitor.switchOff_counts _ _,
      StrideMonitor.switchOff_stallTimer _ _⟩

/-- Settles O24: the count of a stall, then by the mode the retry or the halt. -/
theorem stallTaken : Obligations.StallTaken := by
  intro s d claim calm run
  refine ⟨fun notDue => if_neg notDue, fun due => ?_⟩
  have taken : exec .stallTimerExpiry s = .next s.takeStall := if_pos due
  obtain ⟨n, ⟨count, time, events, creeps⟩, stopped⟩ := takeStall_stride d calm run
  obtain ⟨outer, orders, bend, lines⟩ := (takeStall_unturned s).facts
  refine ⟨_, taken, events.trans (satInc_byte _), stopped, count, time, creeps, outer, orders, bend, lines,
    fun mode within => ?_, fun halts => ?_⟩
  · obtain ⟨state, output, rest, stride, status, loader, stall⟩ := takeStall_retried d calm run mode within
    have notOff : s.config.stalling ≠ .off := by rw [mode]; decide
    have claims : s.takeStall.ClaimInv := StandingFact.claim.exec_keeps d claim taken
    generalize s.takeStall = t at *
    rw [stride, StrideMonitor.switchOff, if_neg notOff]
    refine ⟨state, output, rest, rfl, rfl, rfl, rfl, rfl, rfl, status, fun follower => ⟨stall follower, ?_⟩⟩
    rw [claims.reach, State.reachOf, stall follower, State.own, State.towers, State.config, loader]
    rfl
  · obtain ⟨n, taken⟩ := takeStall_halts halts
    have halt := haltsWith_raise (s.setStride (s.stride.stalled n)) .stall (some s.own) d.contactor.1
      (by rw [State.setStride_drive, run]; rfl)
    rw [taken, ← run]
    exact haltsWith_congr halt id rfl rfl rfl rfl rfl (fun _ => rfl) rfl (fun _ => rfl)

/-- A pause that has stopped stays so through every decision. -/
theorem pauseStopped_quiet : Quiet (fun s t : State => s.stride.retryPause = none → t.stride.retryPause = none) where
  refl _ := id
  trans h k := k ∘ h
  halt _ _ := id
  claim _ _ _ _ := id
  emptied _ := id
  line _ _ _ := id
  pace _ _ _ _ := id
  choices _ _ := id
  census _ _ _ _ _ _ := id
  transition s d _ _ := transition_noPause s d

/-- A settled station stays where it is under a change that no line of Table 1-2 reads. -/
theorem State.Settled.stays {s t : State} (h : s.Settled) (upper : t.upperTier = s.upperTier)
    (moving : t.movingTier = s.movingTier) : t.settledState = s.drive.state := by
  rw [t.settledState_upper, upper, moving, ← s.settledState_upper]
  exact h

/-- Settles O25: tiers 7 to 9 decide anew in STALLED, and no other state reads the pause. -/
theorem retryPauseEndSettles : Obligations.RetryPauseEndSettles := by
  intro s d calm due
  let u := s.setStride { s.stride with retryPause := none }
  obtain ⟨⟨outer, orders, bend, lines⟩, tallies⟩ :
      (s.SameOuter u.settle ∧ s.SameOrders u.settle ∧ s.SameBend u.settle ∧ s.SameLines u.settle) ∧ s.SameTallies u.settle :=
    ⟨(State.Unturned.quiet.trans (State.Unturned.setStride s _) (State.Unturned.quiet.settle u)).facts,
      State.SameTallies.quiet.trans (b := u) ⟨rfl, rfl, rfl, rfl, rfl, rfl⟩ (State.SameTallies.quiet.settle u)⟩
  refine ⟨u.settle, if_pos due, pauseStopped_quiet.settle u rfl, fun stalled => ?_, fun other => ?_, outer, orders, bend, tallies,
    lines⟩
  · have top : u.topTier = none :=
      d.settled.topTier_none (by rw [stalled]; decide) (by rw [stalled]; decide) (by rw [stalled]; decide)
    have here : u.drive.state = .stalled := stalled
    rw [settle_state (s := u) calm, settled_of_tiers top (by simp [here]) (by simp [here]) (by simp [u]), u.movingTier_eq]
    rfl
  · have upper : u.upperTier = s.upperTier := by
      simp only [State.upperTier, show u.drive = s.drive from rfl, other, false_and, if_false]
      rfl
    exact settle_same (d.settled.stays upper rfl)

end Sys2Proof.Machine
end

section
/-! Proofs of the statements on the pace period, the presence limits and the loop sense (O26, O33, O45). -/

open Sys2Proof Sys2Proof.Machine Host

namespace Sys2Proof.Machine

/-! ### The pace period -/

theorem State.Undisturbed.setPace (s : State) (x : PaceTimer) : s.Undisturbed (s.setPace x) :=
  ⟨⟨⟨rfl, rfl, rfl, rfl, rfl⟩, ⟨rfl, rfl, rfl, rfl, rfl, rfl⟩, .refl _⟩, ⟨rfl, rfl, rfl, rfl, rfl, rfl⟩, ⟨rfl, rfl⟩⟩

/-- What a boundary of the period does at the pacer: the timer as given, the request's effect on WAIT and RUN, and
nothing at all when the request is as it was. -/
structure State.Boundary (s t : State) (x : PaceTimer) : Prop where
  pace  : t.pace = x
  state : t.drive.state = if s.drive.state = .wait then (if x.request = true ∧ s.drive.rest = .rested then .run else .wait)
    else if s.drive.state = .run then (if x.request = true ∧ s.drive.rest = .rested then .run else .wait)
    else s.drive.state
  still : x.request = s.pace.request → t = s.setPace x
  alike : s.Undisturbed t

/-- A boundary settles the state again; where the request is as it was that does nothing. -/
theorem pace_boundary {s : State} (d : s.DriveInv) (pacer : s.isPacer = true) (calm : s.leadBeyondHalt = false)
    {x : PaceTimer} (running : x.running = true) : s.Boundary (s.setPace x).settle x := by
  have goes := setPace_settled d pacer x
  refine {
    pace := ?_
    state := (settle_state (s := s.setPace x) calm).trans goes
    still := fun same => settle_same ?_
    alike := (State.Undisturbed.setPace s x).trans (State.Undisturbed.quiet.settle _) }
  · by_cases same : (s.setPace x).settledState = (s.setPace x).drive.state
    · rw [settle_same same]
      rfl
    · have new : (s.setPace x).settledState = .run ∨ (s.setPace x).settledState = .wait := by
        rw [goes] at same ⊢
        split_ifs at same ⊢ <;> simp_all
      have period (y) (goes' : (s.setPace x).settledState = y) (moving : y = .wait ∨ y = .run) :
          (s.setPace x).settle.pace = x := by
        have moved := settle_moves (s := s.setPace x) calm goes' (goes' ▸ same)
          (by rcases moving with rfl | rfl <;> rfl)
        rw [moved.pace, if_pos (show (s.setPace x).isPacer = true from pacer), decide_eq_true moving, ← running]
        rfl
      rcases new with run | wait
      · exact period _ run (.inr rfl)
      · exact period _ wait (.inl rfl)
  · refine d.settled.stays rfl ?_
    rw [State.movingTier_eq, State.movingTier_eq]
    have request : (s.setPace x).runRequest = s.runRequest := by
      rw [State.runRequest, State.runRequest, show (s.setPace x).isPacer = s.isPacer from rfl, pacer, if_pos rfl,
        if_pos rfl]
      exact same
    rw [request]
    rfl

/-- Settles O26: both boundaries are a boundary in that sense; the request they report differs. -/
theorem paceBoundaries : Obligations.PaceBoundaries := by
  intro s d pacer calm running period
  refine ⟨fun above below reached => ?_, fun off => if_neg fun k => off ⟨k.2.1, k.2.2.1, k.2.2.2⟩,
    fun early => if_neg fun k => Nat.not_lt.mpr k.2 early, fun reached => ?_⟩
  · obtain ⟨pace, state, still, alike⟩ := pace_boundary d pacer calm (x := { s.pace with request := false }) running
    obtain ⟨outer, orders, bend, tallies, lines⟩ := alike.facts
    have expires : exec .endOfOnPart s = .next (s.setPace { s.pace with request := false }).settle := by
      refine (if_pos ⟨running, above, below, reached⟩).trans ?_
      split
      · rfl
      · next absent => rw [still (by simp [absent])]
    refine ⟨_, expires, state.trans ?_, pace, fun absent => ?_, outer, orders, bend, tallies, lines⟩
    · cases s.drive.state <;> simp
    · rw [still absent.symm]
      rfl
  · let x : PaceTimer := { s.pace with
      position := 0, pace := s.pace.pendingPace.getD s.pace.pace, pendingPace := none
      onLength := s.onLengthAt (s.pace.pendingPace.getD s.pace.pace)
      request := decide (0 < s.onLengthAt (s.pace.pendingPace.getD s.pace.pace)) }
    obtain ⟨pace, state, still, alike⟩ := pace_boundary d pacer calm (x := x) running
    obtain ⟨outer, orders, bend, tallies, lines⟩ := alike.facts
    have expires : exec .endOfPeriod s = .next (s.setPace x).settle := by
      refine (if_pos ⟨running, reached⟩).trans ?_
      split
      · next same => rw [still same]; rfl
      · rfl
    refine ⟨_, expires, pace, state.trans ?_, fun same => ?_, outer, orders, bend, tallies, lines⟩
    · have rested (run : s.drive.state = .run) : s.drive.rest = .rested := (run_rested d run).2
      have request : x.request = true ↔ 0 < s.onLengthAt (s.pace.pendingPace.getD s.pace.pace) := decide_eq_true_iff
      change _ = if s.drive.state = .run ∧ s.onLengthAt (s.pace.pendingPace.getD s.pace.pace) = 0 then DriveState.wait
        else if s.drive.state = .wait ∧ 0 < s.onLengthAt (s.pace.pendingPace.getD s.pace.pace)
          ∧ s.drive.rest = .rested then .run else s.drive.state
      cases here : s.drive.state <;> simp [request, Nat.pos_iff_ne_zero]
      simp [rested here]
    · rw [pace] at same
      rw [still same]
      rfl

/-! ### The presence limits -/

/-- A record of an expected position that is not CURRENT blocks the census; the evaluation then changes the blocker
alone. -/
theorem evaluate_absent {s : State} {p : Position} {x : RosterRecord} (other : p ≠ s.own) (expected : p.toNat ≤ s.towers)
    (absent : x.presence ≠ .current) : ∃ b,
      (s.setRoster (s.roster.put p x)).evaluateCensus =
        (s.setRoster (s.roster.put p x)).setOrders { s.orders with blocker := b }
      ∧ (s.orders.counting = false → ({ s.orders with blocker := b } : OrderUnit) = s.orders)
      ∧ (s.orders.counting = true → b ≠ none) := by
  obtain ⟨o, evaluated, only, idle, counts⟩ := evaluate_blocked (s.setRoster (s.roster.put p x)) fun _ =>
    blocked_of p expected other (not_mustered (by
      rw [State.setRoster_roster, Roster.recordOf_put, if_pos rfl]; exact absent))
  have only' : o = { s.orders with blocker := o.blocker } := only
  exact ⟨o.blocker, only' ▸ evaluated, fun k => only'.symm.trans (idle k), counts⟩

/-- Settles O33: the record alone, the blocked evaluation, and for a loss the halt it raises. -/
theorem presenceLimits : Obligations.PresenceLimits := by
  intro s p d roster active r cause stale lost
  obtain ⟨passed, on⟩ := (active_iff s).mp active
  have inReach (expected : r.expected = true) : p.toNat ≤ s.towers :=
    of_decide_eq_true ((roster.expected passed p).symm.trans expected)
  refine ⟨fun other expected current old => ?stale, fun not => if_neg ?notStale,
    fun other expected here old => ?lost, fun not => if_neg ?notLost⟩
  case stale =>
    obtain ⟨b, evaluated, idle, counts⟩ := evaluate_absent (x := { r with presence := .stale }) other (inReach expected)
      nofun
    refine ⟨_, if_pos ⟨active, other, expected, current, old⟩, ?_⟩
    rw [evaluated]
    exact ⟨(Roster.recordOf_put _ _ _ _).trans (if_pos rfl), fun q ne => (Roster.recordOf_put _ _ _ _).trans (if_neg ne),
      rfl, idle, counts⟩
  case notStale =>
    rintro ⟨-, other, expected, current, old⟩
    rcases not with own | unexpected | absent | young
    · exact other own
    · exact absurd (expected.symm.trans unexpected) (by decide)
    · exact absent current
    · exact young old
  case lost =>
    obtain ⟨b, evaluated, -, -⟩ := evaluate_absent (x := { r with presence := .lost }) other (inReach expected)
      nofun
    let v := (s.setRoster (s.roster.put p { r with presence := .lost })).setOrders { s.orders with blocker := b }
    have expires : exec (.lostLimitPassed p) s = .next (v.raiseHalt cause (some p)) := by
      refine (if_pos ⟨active, other, expected, here, old⟩).trans ?_
      rw [evaluated]
    have kind : cause = .panelLost ∨ cause = .peerLost := (ite_eq_or_eq _ _ _)
    obtain ⟨halts, free, idle, joins⟩ := lost_raise (u := v) cause p d rfl rfl kind rfl on
    have kept : (v.raiseHalt cause (some p)).roster = s.roster.put p { r with presence := .lost } :=
      (State.SameOuter.quiet.raiseHalt v cause (some p)).roster
    refine ⟨_, expires, ?_, fun q ne => ?_, fun underway => ?_, free, idle, fun halted => (joins halted).trans ?_⟩
    · rw [kept, Roster.recordOf_put, if_pos rfl]
    · rw [kept, Roster.recordOf_put, if_neg ne]
    · exact haltsWith_congr (halts underway) id rfl rfl rfl rfl rfl (fun _ => rfl) rfl (fun _ => rfl)
    · simp only [cause]
      split <;> rfl
  case notLost =>
    rintro ⟨-, other, expected, here, old⟩
    rcases not with own | unexpected | absent | gone | young
    · exact other own
    · exact absurd (expected.symm.trans unexpected) (by decide)
    · exact absurd here (by rw [absent]; decide)
    · exact absurd here (by rw [gone]; decide)
    · exact young old

/-! ### The loop sense -/

/-- A halt raised keeps the settled loop sense. -/
theorem raise_sense (u : State) (c : HaltCause) (o : Option Position) :
    (u.raiseHalt c o).halt.settledSense = u.halt.settledSense := by
  rw [State.raiseHalt]
  split
  · rfl
  split
  · rw [enterHalted_halt]
  · rfl

/-- A loop loss in HALTED joins a record of SEIZED alone (R141). -/
theorem addLater_loopOpen (r : HaltRecord) : r.addLater .loopOpen =
    if r.cause = some .seized then { r with later := { r.later with loopOpen := true } } else r := by
  rw [HaltRecord.addLater]
  split
  · next own => rw [own, if_neg (by decide)]
  · rfl

/-- Settles O45: the sense taken, the census, and a loss raised on the station after it. -/
theorem loopSenseSettles : Obligations.LoopSenseSettles := by
  intro s d differs held u
  have toggled : s.setHalt s.halt.settleSense = u := by
    have : (!s.halt.settledSense) = s.halt.rawSense := by
      cases raw : s.halt.rawSense <;> cases settled : s.halt.settledSense <;> simp_all
    rw [HaltUnit.settleSense, this]
    rfl
  have settles (running : s.inReset = false) :
      exec .loopSenseSettled s = if u.active then .next u.reportSense else .next u := by
    rw [← toggled]
    exact if_pos ⟨running, differs, held⟩
  refine ⟨fun within => if_neg fun k => absurd (within.symm.trans k.1) (by decide), fun running asleep => ?_,
    fun running active absent => ?_, fun running active present => ?_⟩
  · rw [settles running, if_neg (show ¬u.active = true by rw [show u.active = s.active from rfl, asleep]; decide)]
  · have raw : s.halt.rawSense = true := Bool.eq_true_of_not_eq_false fun low => differs (low.trans absent.symm)
    exact (settles running).trans ((if_pos active).trans (congrArg _ (if_pos raw)))
  · have raw : s.halt.rawSense = false := Bool.eq_false_of_not_eq_true fun high => differs (high.trans present.symm)
    obtain ⟨o, evaluated, only, -⟩ := evaluate_blocked u fun _ => ⟨.loop, by rw [State.censusBlocker, if_pos]; simp [u, raw]⟩
    have reports : u.reportSense = (u.setOrders o).raiseHalt .loopOpen none := by
      rw [State.reportSense, evaluated]
      exact if_neg (by simp [u, raw])
    have settled : exec .loopSenseSettled s = .next ((u.setOrders o).raiseHalt .loopOpen none) := by
      rw [settles running, if_pos (show u.active = true from active), reports]
    have same : s.SameOrders (u.setOrders o) := by rw [only]; exact ⟨rfl, rfl, rfl, rfl, rfl, rfl⟩
    have outer : s.SameOuter (u.setOrders o) := ⟨rfl, rfl, rfl, rfl, rfl⟩
    refine ⟨_, settled, fun underway => ?_, fun idle => ?_, fun halted => ?_, (raise_sense _ _ _).trans raw,
      State.SameOrders.quiet.trans same (State.SameOrders.quiet.raiseHalt _ _ _),
      State.SameOuter.quiet.trans outer (State.SameOuter.quiet.raiseHalt _ _ _)⟩
    · have halt := haltsWith_raise (u.setOrders o) .loopOpen none d.contactor.1 underway
      exact haltsWith_congr halt id (by rw [only]; rfl) rfl rfl rfl rfl (fun _ => rfl) rfl (fun _ => rfl)
    · have here : (u.setOrders o).drive.state = .idle := idle
      rw [raise_nothing (by rw [here]; decide) (by rw [here]; rfl)]
      rfl
    · rw [State.raiseHalt, if_pos (show (u.setOrders o).drive.state = .halted from halted)]
      refine (congrArg (u.setOrders o).setHalt ?_)
      rw [show (u.setOrders o).halt = u.halt from rfl, addLater_loopOpen]
      change _ = if u.halt.record.cause = some .seized then _ else _
      split <;> rfl

end Sys2Proof.Machine
end

section
/-! Proofs of the statements on bend sensing (O17, O18, O19, O20): the end of an exchange, a good sample with the
decisions of its lead, and a failed exchange by the sensor mode. -/

open Sys2Proof Sys2Proof.Machine Host

namespace Sys2Proof.Machine

/-! ### The end of an exchange -/

/-- Each of the commands that end an exchange ends it with a result that leaves the port's exchange alone, from a port
whose received word and ready level alone may differ. -/
theorem exec_ends_exchange {s : State} {i : Instr} {ready : Bool} {word : BitVec 24}
    (ends : i = .readyTimeout ready ∧ s.sensor.exchange = .readyWait
      ∨ (i = .short ready ∨ i = .shiftComplete word ready) ∧ s.sensor.exchange = .shifting) :
    ∃ x f, x = { s.sensor with readyPin := x.readyPin, receivedWord := x.receivedWord }
      ∧ exec i s = .next ((s.setSensor x).finishExchange f ready) ∧ ∀ u, SameExchange u (f u) := by
  rcases ends with ⟨rfl, waits⟩ | ⟨rfl | rfl, shifts⟩
  · exact ⟨s.sensor, _, rfl, if_pos waits, sameExchange_sense.failed⟩
  · exact ⟨{ s.sensor with readyPin := !s.config.readyAsserted true }, _, rfl, if_pos shifts, sameExchange_sense.failed⟩
  · exact ⟨{ s.sensor with receivedWord := some word }, fun u => u.judgeWord word, rfl, if_pos shifts,
      fun u => sameExchange_sense.judge u word⟩

/-- Settles O17: the three facts of the end of an exchange, for each command that ends one. -/
theorem exchangeEndReleasesSelect : Obligations.ExchangeEndReleasesSelect := by
  intro s i ready word d ends
  obtain ⟨x, f, port, ended, keeps⟩ := exec_ends_exchange ends
  obtain ⟨off, rests, begins⟩ := finish_facts (driveInv_setSensor d x) f ready keeps
  refine ⟨_, ended, fun offline => ?_, fun on idle => ?_, fun on pending => ?_⟩
  · rw [off offline, port]
    rfl
  · obtain ⟨exchange, select, clock, readyTimer, timer, pending, out⟩ := rests on (by rw [port]; exact idle)
    exact ⟨exchange, select, clock, readyTimer, timer.trans (by rw [port]; rfl), pending, out⟩
  · exact begins on (by rw [port]; exact pending)

/-! ### What every result of an exchange leaves alone -/

/-- The outer blocks, the order in force, the lines, the DIRECTION output and the drive counters. -/
def State.Sensed (s t : State) : Prop :=
  s.SameOuter t ∧ s.SameOrders t ∧ s.line.SameLines t.line ∧ SameDirection s t ∧ t.stride.SameCounts s.stride

/-- Two relations kept through the results of an exchange, kept together. -/
theorem Sense.and {R S : State → State → Prop} (q : Sense R) (r : Sense S) : Sense (fun s t => R s t ∧ S s t) where
  toQuiet := q.toQuiet.and r.toQuiet
  governor s g := ⟨q.governor s g, r.governor s g⟩
  sensor s x h := ⟨q.sensor s x h, r.sensor s x h⟩

theorem State.Sensed.sense : Sense State.Sensed :=
  outer_sense.and (orders_sense.and (lines_sense.and (sameDirection_sense.and counts_sense)))

theorem State.Sensed.setSensor (s : State) (x : SensorPort) : s.Sensed (s.setSensor x) :=
  ⟨⟨rfl, rfl, rfl, rfl, rfl⟩, ⟨rfl, rfl, rfl, rfl, rfl, rfl⟩, .refl _, rfl, rfl, rfl, rfl, rfl⟩

/-- The facts as the statements list them. -/
theorem State.Sensed.facts {s t : State} (h : s.Sensed t) :
    t.drive.direction = s.drive.direction ∧ s.SameOuter t ∧ s.SameOrders t ∧ s.SameLines t
    ∧ t.stride.strideCount = s.stride.strideCount ∧ t.stride.runTime = s.stride.runTime
    ∧ t.stride.stallEvents = s.stride.stallEvents ∧ t.stride.creepPulses = s.stride.creepPulses := by
  obtain ⟨outer, orders, lines, direction, counts⟩ := h
  exact ⟨direction, outer, orders, .of lines, counts⟩

/-! ### A good sample -/

/-- A good sample, taken apart: the exchange ended in `v`, the sample taken, the fault mark withdrawn, and the port going
on in `t`. -/
structure State.SampleTaken (s t v : State) (bend : BitVec 16) : Prop where
  port    : v = s.setSensor v.sensor
  total   : v.sensor.failureTotal = s.sensor.failureTotal
  rest    : t = (v.goodSample bend.toInt).setSensor t.sensor
  total'  : t.sensor.failureTotal = (v.goodSample bend.toInt).sensor.failureTotal
  count   : t.sensor.consecutiveFailures = 0
  mark    : t.sensor.faultMark = false

theorem exec_good_sample {s : State} (bend : BitVec 16) (ready : Bool) (shifts : s.sensor.exchange = .shifting)
    (on : s.drive.state ≠ .offline) (low : -1500 ≤ bend.toInt) (high : bend.toInt ≤ 1500) :
    ∃ t v, exec (.shiftComplete (s.config.signature ++ bend) ready) s = .next t ∧ s.SampleTaken t v bend := by
  obtain ⟨v, port, total, -, z, taken, total', count, mark⟩ := good_step bend ready shifts on low high
  have only := (ClaimOnly.report ((v.takeSample bend.toInt).setSensor
    { (v.takeSample bend.toInt).sensor with consecutiveFailures := 0, faultMark := false }) .sensor false).sensor
  exact ⟨_, v, taken, port, total, rfl, total', count.trans (congrArg SensorPort.consecutiveFailures only),
    mark.trans (congrArg SensorPort.faultMark only)⟩

/-- A good sample beside the sample's reports: the SENSOR reason withdrawn. -/
theorem goodSample_eq (v : State) (bend : Int) : v.goodSample bend = ((v.takeSample bend).setSensor
    { (v.takeSample bend).sensor with consecutiveFailures := 0, faultMark := false }).reportReason .sensor false := rfl

theorem goodSample_governor (v : State) (bend : Int) :
    (v.goodSample bend).governor = v.governor.sample bend v.drive.direction := by
  rw [goodSample_eq, (ClaimOnly.report _ _ _).governor]
  exact (State.SameBend.quiet.leadReports _ _).governor

theorem goodSample_total (v : State) (bend : Int) :
    (v.goodSample bend).sensor.failureTotal = v.sensor.failureTotal := by
  rw [goodSample_eq, (ClaimOnly.report _ _ _).sensor]
  exact (State.SameTallies.quiet.leadReports (v.setGovernor (v.governor.sample bend v.drive.direction)) v.governor).total

/-- Settles O18: the window and its judgements, the counts and the mark, and what a sample leaves alone. -/
theorem goodSampleJoinsWindow : Obligations.GoodSampleJoinsWindow := by
  intro s bend ready d shifts on low high
  obtain ⟨t, v, taken, port, total, rest, total', count, mark⟩ := exec_good_sample bend ready shifts on low high
  have kept : s.Sensed t := by
    rw [rest]
    refine State.Sensed.sense.trans ?_ (State.Sensed.sense.trans (State.Sensed.sense.good v bend.toInt)
      (State.Sensed.setSensor _ t.sensor))
    rw [port]
    exact State.Sensed.setSensor s v.sensor
  have governor : t.governor = s.governor.sample bend.toInt s.drive.direction := by
    rw [rest, State.setSensor_governor, goodSample_governor, port]
    rfl
  have reason : t.claim.reasons.sensor = false := by
    rw [rest, State.setSensor_claim, goodSample_eq, report_reasons]
    rfl
  refine ⟨t, taken, governor.trans (sample_form _ _ _), count, ?_, mark, reason, kept.facts⟩
  rw [total', goodSample_total, total]

/-- The LAG reason after a good sample is that of the sample's reports. -/
theorem goodSample_lag {v : State} {bend : Int} (told : LagOk (v.takeSample bend)) : LagOk (v.goodSample bend) := by
  have only := ClaimOnly.report ((v.takeSample bend).setSensor
    { (v.takeSample bend).sensor with consecutiveFailures := 0, faultMark := false }) .sensor false
  rw [goodSample_eq, LagOk, report_reasons, only.governor, State.isFollowing, only.drive,
    State.isPacer_congr only.loader]
  exact told

/-- A misalignment on a good sample: the reports of the lead, and then nothing left to withdraw. -/
theorem goodSample_halts {u v : State} {bend : Int} {c : HaltCause} {o : Option Position} {prior : DriveState}
    (halt : u.HaltsWith (v.takeSample bend) c o prior) : u.HaltsWith (v.goodSample bend) c o prior := by
  rw [goodSample_eq, halts_report (halts_setSensor halt _)]
  exact halts_setSensor halt _

theorem leadReports_misaligned {u : State} (before : Governor) (misaligned : u.misaligned = true) :
    u.leadReports before = u.misalignReports := if_pos misaligned

/-- A known lead in the governor that a sample leaves. -/
theorem sample_lead (g : Governor) (bend : Int) (d : Direction) : (g.sample bend d).lead.isSome = true := by
  rw [sample_form]
  rfl

/-- Settles O19: a misalignment halts; every other lead is reported, by the state the station is in. -/
theorem newLeadDecidesDriveState : Obligations.NewLeadDecidesDriveState := by
  intro s bend ready d follower shifts on low high
  obtain ⟨t, v, taken, port, -, rest, -⟩ := exec_good_sample bend ready shifts on low high
  obtain ⟨x, rfl⟩ : ∃ x, v = s.setSensor x := ⟨_, port⟩
  refine ⟨t, taken, ?_⟩
  let g := s.governor.sample bend.toInt s.drive.direction
  let w := (s.setSensor x).setGovernor g
  have governor : t.governor = g := by
    rw [rest, State.setSensor_governor, goodSample_governor]
    rfl
  have only : ClaimOnly ((s.setSensor x).takeSample bend.toInt |>.setSensor _) ((s.setSensor x).goodSample bend.toInt) :=
    ClaimOnly.report _ .sensor false
  have drive : t.drive = (w.leadReports s.governor).drive := by rw [rest]; exact only.drive
  have orders : t.orders = (w.leadReports s.governor).orders := by rw [rest]; exact only.orders
  have pacer : t.isPacer = false := by
    rw [rest]
    exact (State.isPacer_congr (only.loader.trans (outer_sense.takeSample (s.setSensor x) _).loader)).trans follower
  have lagged (lag : LagOk (w.leadReports s.governor)) : t.claim.reasons.lag = (t.governor.lagMark && t.isFollowing) := by
    have good : LagOk t := by rw [rest]; exact goodSample_lag lag
    rw [good, pacer, Bool.not_false, Bool.and_true]
  have inert (misaligned : w.misaligned ≠ true) := lead_reports (s := s.setSensor x) (driveInv_setSensor d x) on follower
    (g := g) rfl (Bool.eq_false_of_not_eq_true misaligned)
  have halting (misaligned : w.misaligned = true) := leadReports_misaligned s.governor misaligned ▸
    misalign_halts (s := s.setSensor x) (driveInv_setSensor d x) follower (g := g) rfl misaligned
  rw [governor] at lagged ⊢
  intro u misaligned
  have test : misaligned ↔ w.misaligned = true := by rw [State.misaligned, Bool.and_eq_true]; rfl
  rw [test]
  refine ⟨fun halts => ?halts, fun stands => ?stands, ?lag⟩
  case halts =>
    obtain ⟨prior, halt, order⟩ := halting halts
    refine ⟨prior, ?_, order⟩
    rw [rest]
    exact haltsWith_congr (halts_setSensor (goodSample_halts halt) _) id rfl rfl rfl rfl rfl (fun _ => rfl) rfl
      (fun _ => rfl)
  case stands =>
    obtain ⟨-, moves, stays, census⟩ := inert stands
    have known : g.lead.isSome = true := sample_lead _ _ _
    have goes (other : s.drive.state ≠ .muster) := (moves other).trans
      (setGovernor_settled (s := s.setSensor x) (driveInv_setSensor d x) follower g)
    rw [drive, orders]
    refine ⟨fun wait => ?_, fun run => ?_, fun muster lead => stays muster ?_, fun muster unknown => census muster ?_,
      fun notWait notRun other => ?_⟩
    · exact (goes (by rw [wait]; decide)).trans (if_pos wait)
    · exact (goes (by rw [run]; decide)).trans
        ((if_neg (by rw [State.setSensor_drive, run]; decide)).trans (if_pos run))
    · exact (Option.isSome_iff_ne_none.mpr lead).trans known.symm
    · rw [known, State.setSensor_governor, unknown]
      decide
    · exact (goes other).trans ((if_neg notWait).trans (if_neg notRun))
  case lag =>
    refine lagged ?_
    by_cases halts : w.misaligned = true
    · obtain ⟨prior, halt, -⟩ := halting halts
      exact halted_lagOk halt
    · exact (inert halts).1

/-! ### A failed exchange -/

/-- The failures in a row at which a following station halts (Table 3-3, R49 to R51). -/
def SensorMode.limit : SensorMode → Nat
  | .skip => 8
  | .retry => 5
  | .halt => 1

/-- The consequence of a counted failure: a halt at the limit, and under it the window kept in SKIP mode, emptied in the
others, with the fault mark in a following state (R49 to R52). -/
theorem failureConsequence_eq {u : State} (counted : 1 ≤ u.sensor.consecutiveFailures.toNat) :
    u.failureConsequence =
      if u.isFollowing = true ∧ u.config.sensing.limit ≤ u.sensor.consecutiveFailures.toNat then u.sensorHalt
      else if u.config.sensing = .skip then u
      else if u.isFollowing = true then u.emptyWindow.markSensorFault else u.emptyWindow := by
  rw [State.failureConsequence]
  cases following : u.isFollowing <;> cases mode : u.config.sensing
  case true.skip => simp only [SensorMode.limit, true_and, if_true, ← Nat.not_lt, ite_not]
  case true.retry => simp only [SensorMode.limit, true_and, if_true, reduceCtorEq, if_false, ← Nat.not_lt, ite_not]
  case true.halt => simp [SensorMode.limit, counted]
  all_goals rfl

/-- What a failed exchange does to a follower that has counted it, when the limit is reached or not. -/
structure State.FailureTaken (u t : State) (halts : Prop) : Prop where
  tallies : u.SameTallies t
  kept    : u.config.sensing = .skip ∧ ¬halts → t.governor = u.governor ∧ t.drive.state = u.drive.state
  emptied : ¬(u.config.sensing = .skip ∧ ¬halts) → t.governor = u.governor.emptied ∧ t.claim.reasons.lag = false
  halted  : halts → ∃ prior, (u.setGovernor u.governor.emptied).HaltsWith t .sensor (some u.own) prior
    ∧ (prior = u.drive.state ∨ u.drive.state = .run ∧ prior = .wait)
  stopped : ¬halts → u.config.sensing ≠ .skip → t.drive.state = if u.drive.state = .run then .wait else u.drive.state
  faulted : ¬halts → u.isFollowing = true → u.config.sensing = .retry →
    t.sensor.faultMark = true ∧ t.claim.reasons.sensor = true

theorem sensorHalt_taken {u : State} (d : u.DriveInv) (following : u.isFollowing = true) :
    u.FailureTaken u.sensorHalt True := by
  let w := u.setGovernor u.governor.emptied
  obtain ⟨prior, halt, order⟩ := withdrawal_halts (u := w) .sensor d.contactor.1 following
  exact {
    tallies := State.SameTallies.quiet.trans (b := w) ⟨rfl, rfl, rfl, rfl, rfl, rfl⟩
      (State.SameTallies.quiet.haltAfterWithdrawal w .sensor)
    kept := fun k => absurd trivial k.2
    emptied := fun _ => ⟨(State.SameBend.quiet.haltAfterWithdrawal w .sensor).governor, by
      rw [show u.sensorHalt.claim = ClaimUnit.reset from halt.claim]; rfl⟩
    halted := fun _ => ⟨prior, halt, order.imp id fun k => ⟨k.1, k.2.2⟩⟩
    stopped := fun no => absurd trivial no
    faulted := fun no => absurd trivial no }

theorem skipped_taken {u : State} (skip : u.config.sensing = .skip) : u.FailureTaken u False where
  tallies := State.SameTallies.quiet.refl u
  kept _ := ⟨rfl, rfl⟩
  emptied no := absurd ⟨skip, id⟩ no
  halted := False.elim
  stopped _ other := absurd skip other
  faulted _ _ retry := absurd (skip.symm.trans retry) (by decide)

theorem emptyWindow_tallies (u : State) : u.SameTallies u.emptyWindow :=
  State.SameTallies.quiet.trans (b := u.setGovernor u.governor.emptied) ⟨rfl, rfl, rfl, rfl, rfl, rfl⟩
    (State.SameTallies.quiet.leadReports _ _)

theorem emptyWindow_governor (u : State) : u.emptyWindow.governor = u.governor.emptied :=
  (State.SameBend.quiet.leadReports (u.setGovernor u.governor.emptied) u.governor).governor

theorem emptyWindow_taken {u : State} (d : u.DriveInv) (on : u.drive.state ≠ .offline) (follower : u.isPacer = false)
    (mode : u.config.sensing ≠ .skip) (free : u.isFollowing = false) : u.FailureTaken u.emptyWindow False where
  tallies := emptyWindow_tallies u
  kept k := absurd k.1 mode
  emptied _ := ⟨emptyWindow_governor u, emptyWindow_lag d on follower⟩
  halted := False.elim
  stopped _ _ := empty_reports d on follower
  faulted _ following := absurd (free.symm.trans following) (by decide)

theorem markSensorFault_eq {v : State} (follower : v.isPacer = false) :
    v.markSensorFault = (v.setSensor { v.sensor with faultMark := true }).reportReason .sensor true :=
  congrArg ((v.setSensor { v.sensor with faultMark := true }).reportReason .sensor)
    (by rw [show (v.setSensor { v.sensor with faultMark := true }).isPacer = false from follower]; rfl)

theorem markFault_taken {u : State} (d : u.DriveInv) (on : u.drive.state ≠ .offline) (follower : u.isPacer = false)
    (mode : u.config.sensing ≠ .skip) : u.FailureTaken u.emptyWindow.markSensorFault False := by
  have follows : u.emptyWindow.isPacer = false := (State.isPacer_congr (outer_sense.emptyWindow u).loader).trans follower
  have presents := markSensorFault_eq follows
  have only := ClaimOnly.report (u.emptyWindow.setSensor { u.emptyWindow.sensor with faultMark := true }) .sensor true
  have reasons := report_reasons (u.emptyWindow.setSensor { u.emptyWindow.sensor with faultMark := true }) .sensor true
  rw [← presents] at only reasons
  exact {
    tallies := State.SameTallies.quiet.trans (emptyWindow_tallies u)
      (.of (by rw [only.stride]; exact ⟨rfl, rfl, rfl, rfl⟩) (by rw [only.sensor]; rfl) (by rw [only.sensor]; rfl))
    kept := fun k => absurd k.1 mode
    emptied := fun _ => ⟨only.governor.trans (emptyWindow_governor u), by
      rw [reasons]; exact emptyWindow_lag d on follower⟩
    halted := False.elim
    stopped := fun _ _ => by rw [only.drive]; exact empty_reports d on follower
    faulted := fun _ _ _ => ⟨by rw [only.sensor]; rfl, by rw [reasons]; rfl⟩ }

/-- Whatever the mode, the consequence of a counted failure acts so. -/
theorem failure_taken {u : State} (d : u.DriveInv) (on : u.drive.state ≠ .offline) (follower : u.isPacer = false)
    (counted : 1 ≤ u.sensor.consecutiveFailures.toNat) :
    u.FailureTaken u.failureConsequence
      (u.isFollowing = true ∧ u.config.sensing.limit ≤ u.sensor.consecutiveFailures.toNat) := by
  rw [failureConsequence_eq counted]
  by_cases halts : u.isFollowing = true ∧ u.config.sensing.limit ≤ u.sensor.consecutiveFailures.toNat
  · rw [if_pos halts, eq_true halts]
    exact sensorHalt_taken d halts.1
  · rw [if_neg halts, eq_false halts]
    split
    · next skip => exact skipped_taken skip
    split
    · next mode _ => exact markFault_taken d on follower mode
    · next mode free => exact emptyWindow_taken d on follower mode (Bool.eq_false_of_not_eq_true free)

/-- A failure counted is at least one. -/
theorem satInc_pos (x : BitVec 8) : 1 ≤ (satInc x).toNat := by
  rw [satInc_byte]
  split
  · decide
  · next room =>
    have : x.toNat ≠ 255 := fun full => room (BitVec.eq_of_toNat_eq full)
    have := x.isLt
    rw [BitVec.toNat_add, Nat.mod_eq_of_lt (by simp; omega)]
    simp

/-- Settles O20: the counts, then the consequence by the mode on the station that has counted. -/
theorem failedExchangeActsByMode : Obligations.FailedExchangeActsByMode := by
  intro s i ready word d follower on fails
  obtain ⟨x, z, total, consecutive, failed, total', consecutive', mark⟩ := failed_form i ready word on fails
  let u := (s.setSensor x).setSensor x.countFailure
  have count : u.sensor.consecutiveFailures = satInc s.sensor.consecutiveFailures := congrArg satInc consecutive
  have rose : u.sensor.failureTotal = satInc s.sensor.failureTotal := congrArg satInc total
  have kept : s.Sensed (u.failureConsequence.setSensor z) := State.Sensed.sense.trans (State.Sensed.setSensor s x)
    (State.Sensed.sense.trans (State.Sensed.sense.failed (s.setSensor x)) (State.Sensed.setSensor _ z))
  refine ⟨_, failed, ?_⟩
  rw [← satInc_byte, ← satInc_word, ← count, ← rose]
  intro number limit halts unchanged emptied
  have same : limit = u.config.sensing.limit := by
    change (match u.config.sensing with | .skip => 8 | .retry => 5 | .halt => 1) = _
    cases u.config.sensing <;> rfl
  have act : u.FailureTaken u.failureConsequence halts := by
    simp only [halts, same]
    exact failure_taken (u := u) (driveInv_setSensor (driveInv_setSensor d x) _) on follower
      (by rw [count]; exact satInc_pos _)
  obtain ⟨tallies, keeps, empties, halted, stopped, faulted⟩ := act
  refine ⟨consecutive'.trans tallies.consecutive, total'.trans tallies.total, fun keep => (keeps keep).1, empties,
    fun halt => ?_, fun free run mode => ?_, fun free other => ?_, fun free following retry => ?_, kept.facts⟩
  · obtain ⟨prior, halt, order⟩ := halted halt
    exact ⟨prior, haltsWith_congr (halts_setSensor halt z) id rfl rfl rfl rfl rfl (fun _ => rfl) rfl (fun _ => rfl), order⟩
  · exact (stopped free fun skip => mode ⟨skip, free⟩).trans (if_pos run)
  · by_cases keep : unchanged
    · exact (keeps keep).2
    · exact (stopped free fun skip => keep ⟨skip, free⟩).trans (if_neg (other.resolve_right keep))
  · obtain ⟨fault, reason⟩ := faulted free following retry
    exact ⟨mark.trans fault, reason⟩

end Sys2Proof.Machine
end

section
/-! Proofs of the statements on frames at the line and the roster (O27, O28, O30, O32, O54): what a good frame does to
its line, and each outcome of Table 7-2 that is not an acceptance to a block of its own. -/

open Sys2Proof Sys2Proof.Machine Host

namespace Sys2Proof.Machine

/-! ### A good frame at its line -/

/-- A good frame that is not the station's own readback ends there when no collection hears it. -/
theorem receive_ignored {s : State} {h : Header} (deaf : s.collecting = false
    ∨ (s.line.lineState h.line).receiver = .discarding) k fill deliver : s.receiveGood h k fill deliver = s :=
  if_pos deaf

/-- The station's own readback ends at the receiver (R105). -/
theorem receive_readback {s : State} {h : Header} (collects : s.collecting = true)
    (taking : (s.line.lineState h.line).receiver ≠ .discarding)
    (own : s.line.readsBack h.line = true ∨ (s.line.lineState h.line).ownFrame = true) k fill deliver :
    s.receiveGood h k fill deliver = s.modifyLine h.line LineState.endFrame :=
  (if_neg (by simp [collects, taking])).trans (if_pos own.symm)

/-- Settles O27: the line of a good frame, and the three ends of one that is not handed on. -/
theorem goodFrameRefreshesLine : Obligations.GoodFrameRefreshesLine := by
  refine ⟨fun s l => ?line, fun s i h k frame => ?_⟩
  case line =>
    rw [noteGood_eq, satInc_word]
  obtain ⟨fill, deliver, run⟩ := exec_frame i h k frame s
  rw [run]
  refine ⟨fun deaf => ?_, fun collects taking own => ?_, fun hears asleep => ?_⟩
  · refine congrArg _ (receive_ignored ?_ k fill deliver)
    have deafens : s.inReset = true ∨ s.loader.state = .reading ∨ s.line.transmitter = .seizing →
        s.collecting = false := by
      rw [← Bool.not_eq_true, collecting_iff]
      rintro (reset | reading | seizing) ⟨running, checked, free⟩
      · exact absurd (reset.symm.trans running) (by decide)
      · rcases checked with passed | failed
        · exact absurd (reading.symm.trans passed) (by decide)
        · exact absurd (reading.symm.trans failed) (by decide)
      · exact free seizing
    rcases deaf with reset | reading | seizing | discarding
    · exact .inl (deafens (.inl reset))
    · exact .inl (deafens (.inr (.inl reading)))
    · exact .inl (deafens (.inr (.inr seizing)))
    · exact .inr discarding
  · rw [receive_readback collects taking own]
    rfl
  · rw [receive_hears hears, if_neg (by rw [asleep]; decide)]

/-! ### The tests of Table 7-2 -/

/-- R106: a frame of the own position is a position conflict. -/
theorem receive_own {s : State} {h : Header} (hears : s.Hears h) (active : s.active = true) (own : h.source = s.own)
    k fill deliver : s.receiveGood h k fill deliver = (s.noteGood h.line).positionConflict := by
  obtain ⟨-, same, -⟩ := noteGood_other s h.line
  rw [receive_hears hears, if_pos active, State.rosterTake, if_pos (own.trans same.symm)]

/-- R108: the third test stops a frame that Table 10-3 does not list. -/
theorem receive_refused {s : State} {h : Header} {k : FrameClass} (hears : s.Hears h) (active : s.active = true)
    (other : h.source ≠ s.own) (within : h.source.toNat ≤ s.towers) (unlisted : k.acceptsFrom h.source = false)
    fill deliver : s.receiveGood h k fill deliver = { s.noteGood h.line with roster :=
      { s.roster with notAcceptedTotal := satInc s.roster.notAcceptedTotal } } := by
  obtain ⟨roster, own, towers⟩ := noteGood_other s h.line
  rw [receive_hears hears, if_pos active, State.rosterTake, own, towers, roster, if_neg other,
    if_neg (Nat.not_lt.mpr within), if_pos unlisted]
  rfl

/-- Settles O30: the third test of the table. -/
theorem refusedFramesAreCounted : Obligations.RefusedFramesAreCounted := by
  intro s i h k frame hears active other within unlisted
  obtain ⟨fill, deliver, run⟩ := exec_frame i h k frame s
  have refused : k.acceptsFrom h.source = false := by
    cases k <;> simp_all [FrameClass.acceptsFrom]
  rw [run, receive_refused hears active other within refused, satInc_word]

/-- The silence of a station that enters OFFLINE (R158). -/
theorem SpanLine.silence_facts (x : SpanLine) : x.silence.transmitter = .released ∧ x.silence.claimSlot = none
    ∧ x.silence.answerSlot = none ∧ x.silence.statusSlot = false ∧ x.silence.reportTimer = none := by
  obtain ⟨-, -, -, transmitter, -⟩ := release_slots x
  exact ⟨transmitter, rfl, rfl, rfl, rfl⟩

/-- A good frame changes the line alone before it is handed on. -/
theorem noteGood_setLine (s : State) (l : Line) : ∃ x, s.noteGood l = s.setLine x :=
  ⟨_, noteGood_eq s l⟩

/-- A position conflict outside OFFLINE is the transition to OFFLINE with its cause set (R12). -/
theorem positionConflict_eq {s : State} (on : s.drive.state ≠ .offline) : s.positionConflict =
    (s.setLoader { s.loader with offlineCause := some .positionConflict }).transition .offline := if_neg on

/-- Settles O28: the transition to OFFLINE read block by block. -/
theorem ownPositionIsAConflict : Obligations.OwnPositionIsAConflict := by
  intro s i h k frame hears active own
  obtain ⟨fill, deliver, run⟩ := exec_frame i h k frame s
  obtain ⟨passed, on⟩ := (active_iff s).mp active
  obtain ⟨x, heard⟩ := noteGood_setLine s h.line
  rw [receive_own hears active own, heard, positionConflict_eq (s := s.setLine x) on] at run
  let u := (s.setLine x).setLoader { s.loader with offlineCause := some .positionConflict }
  have drive := u.transition_drive .offline
  have line := (u.transition_line .offline).trans (if_pos rfl)
  have stride := u.transition_stride .offline
  have holds := u.transition_holds .offline
  have claim := u.transition_claim .offline
  have halt := (u.transition_halt .offline).trans (if_pos (.inl rfl))
  have governor := u.transition_governor .offline
  have loader := u.transition_loader .offline
  have roster := u.transition_roster .offline
  have time := u.transition_localTime .offline
  have tallies : s.SameTallies (u.transition .offline) :=
    State.SameTallies.quiet.trans (b := u) ⟨rfl, rfl, rfl, rfl, rfl, rfl⟩ (u.transition_tallies .offline)
  have orders : s.SameOrders (u.transition .offline) := State.SameOrders.quiet.trans (b := u)
    ⟨rfl, rfl, rfl, rfl, rfl, rfl⟩ (State.SameOrders.quiet.transition u .offline nofun fun _ => .inr nofun)
  refine ⟨u.transition .offline, run, ?_⟩
  generalize u.transition .offline = t at *
  obtain ⟨transmitter, claimSlot, answerSlot, statusSlot, reportTimer⟩ := SpanLine.silence_facts
    { u.line with claimSlot := none, statusSlot := u.line.statusSlot || !u.claim.reasons.isEmpty }
  rw [drive, line, stride, loader, roster, halt, governor, time, holds, claim]
  refine ⟨rfl, rfl, rfl, fun running => if_pos running, rfl, rfl, rfl, rfl, rfl, transmitter, claimSlot, answerSlot,
    statusSlot, reportTimer, fun p => recordOf_empty _ p, rfl, rfl, rfl, rfl, orders, tallies, rfl⟩

/-! ### Accepted frames -/

/-- Settles O32: the roster after the frame, whatever block it is handed to; an ANSWER is handed to none. -/
theorem acceptedFrameUpdatesRecord : Obligations.AcceptedFrameUpdatesRecord := by
  refine ⟨fun s i h k frame accepts => ?_, fun s h item argument data accepts => ?answer⟩
  case answer => exact congrArg _ (receive_accepts accepts id id)
  intro r known
  obtain ⟨fill, deliver, run, keeps, status⟩ := exec_frameOf i h k frame s
  rw [receive_accepts accepts] at run
  have outer := keeps _ State.SameOuter.loud (s.afterHearing h fill)
  have before := afterHearing_heard s h fill State.SameOuter.quiet
  have roster := outer.roster.trans (afterHearing_roster s h fill)
  have lines : (s.noteGood h.line).SameLines (deliver (s.afterHearing h fill)) :=
    .of (State.sameLines_quiet.trans (afterHearing_heard s h fill State.sameLines_quiet)
      (keeps _ State.sameLines_loud (s.afterHearing h fill)))
  obtain ⟨x, heard⟩ := noteGood_setLine s h.line
  have time : (deliver (s.afterHearing h fill)).localTime = s.localTime :=
    outer.localTime.trans (before.localTime.trans (by rw [State.heardFrom, heard]; rfl))
  have loader : (deliver (s.afterHearing h fill)).loader = s.loader :=
    outer.loader.trans (before.loader.trans (by rw [State.heardFrom, heard]; rfl))
  obtain ⟨current, age, seq, accepted, expected, reported⟩ := heard_eq r h.seq
  have record : (deliver (s.afterHearing h fill)).roster.recordOf h.source = fill (r.heard h.seq) := by
    rw [roster, Roster.recordOf_put, if_pos rfl]
  have others (p) (ne : p ≠ h.source) : (deliver (s.afterHearing h fill)).roster.recordOf p = s.roster.recordOf p := by
    rw [roster, Roster.recordOf_put, if_neg ne]
  have totals : (deliver (s.afterHearing h fill)).roster.duplicateTotal = s.roster.duplicateTotal
      ∧ (deliver (s.afterHearing h fill)).roster.strangerTotal = s.roster.strangerTotal
      ∧ (deliver (s.afterHearing h fill)).roster.notAcceptedTotal = s.roster.notAcceptedTotal := by
    rw [roster]; exact ⟨rfl, rfl, rfl⟩
  obtain ⟨duplicates, strangers, refused⟩ := totals
  refine ⟨_, run, ?_⟩
  rw [record, ← satInc_word]
  rcases status with ⟨b, rfl, rfl⟩ | ⟨rfl, other⟩
  · cases frame
    exact ⟨current, age, seq, accepted, expected, fun b' same => by cases same; rfl, absurd rfl, others, duplicates,
      strangers, refused, lines, time, loader⟩
  · refine ⟨current, age, seq, accepted, expected, fun b same => ?_, fun _ => ?_, others, duplicates, strangers, refused,
      lines, time, loader⟩
    · rw [same] at frame
      cases frame
      exact absurd rfl other
    · rw [id, reported]
      exact if_congr decide_eq_true_iff.symm rfl rfl

/-- An ASK of any item is handed to the answers by the one operation. -/
theorem exec_ask {i : Instr} {h : Header} {target item argument : Byte} (ask : askOf i = some (h, target, item, argument))
    (s : State) : exec i s = .next (s.receiveAsk h target item argument) := by
  cases i
  case haltRecord | rosterView | lineCounts | driveCounts | configDigest | holdView | orderView | haltPoint | lineFaults
      | askUnknownItem => cases ask; rfl
  all_goals cases ask

/-- Settles O54: the ANSWER slot of the station addressed. -/
theorem asksQueueAnAnswer : Obligations.AsksQueueAnAnswer := by
  intro s i h target item argument ask accepts u
  rw [exec_ask ask, State.receiveAsk, receive_accepts accepts, State.deliverAsk]
  split <;> rfl

end Sys2Proof.Machine
end

section
/-! Proofs of the statements on adopted orders (O35, O36, O37, O38): the order written, then what the table makes of it
by the action, the direction and the drive state. -/

open Sys2Proof Sys2Proof.Machine Host

namespace Sys2Proof.Machine

/-! ### What every adoption leaves alone -/

theorem State.Outlasts.facts {s t : State} (h : s.Outlasts t) : s.SameOuter t ∧ s.SameTallies t ∧ s.SameLines t := by
  obtain ⟨outer, tallies, lines⟩ := h
  exact ⟨outer, tallies, .of lines⟩

/-- The station that has heard an accepted frame: its standing facts, its loader, and that it is not OFFLINE. -/
theorem heard_facts {s : State} (d : s.DriveInv) {h : Header} {k : FrameClass} (accepts : s.Accepts h k) (fill) :
    (s.afterHearing h fill).DriveInv ∧ (s.afterHearing h fill).drive.state ≠ .offline :=
  ⟨afterHearing_inv d h fill, (heard_station d accepts fill).1⟩

/-! ### The order written -/

section Written
variable (u : State) (n : Byte) (a : Action) (d : Direction) (p : Nat)

theorem writeOrder_drive : (u.writeOrder n a d p).drive = u.drive := by rw [writeOrder_form]
theorem writeOrder_halt : (u.writeOrder n a d p).halt = u.halt := by rw [writeOrder_form]
theorem writeOrder_governor : (u.writeOrder n a d p).governor = u.governor := by rw [writeOrder_form]
theorem writeOrder_stride : (u.writeOrder n a d p).stride = u.stride := by rw [writeOrder_form]
theorem writeOrder_sensor : (u.writeOrder n a d p).sensor = u.sensor := by rw [writeOrder_form]
theorem writeOrder_loader : (u.writeOrder n a d p).loader = u.loader := by rw [writeOrder_form]
theorem writeOrder_roster : (u.writeOrder n a d p).roster = u.roster := by rw [writeOrder_form]
theorem writeOrder_claim : (u.writeOrder n a d p).claim = ClaimUnit.reset := by rw [writeOrder_form]
theorem writeOrder_claimSlot : (u.writeOrder n a d p).line.claimSlot = none := by rw [writeOrder_form]
theorem writeOrder_localTime : (u.writeOrder n a d p).localTime = u.localTime := by rw [writeOrder_form]
theorem writeOrder_transmitter : (u.writeOrder n a d p).line.transmitter = u.line.transmitter := by rw [writeOrder_form]
theorem writeOrder_answerSlot : (u.writeOrder n a d p).line.answerSlot = u.line.answerSlot := by rw [writeOrder_form]
theorem writeOrder_lineState (l : Line) : (u.writeOrder n a d p).line.lineState l = u.line.lineState l := by
  rw [writeOrder_form]
  cases l <;> rfl
theorem writeOrder_orders : (u.writeOrder n a d p).orders = u.orders.adopt n a d p := by rw [writeOrder_form]
theorem writeOrder_holds : (u.writeOrder n a d p).holds = { u.holds with records := Vector.replicate 32 none } := by
  rw [writeOrder_form]
theorem writeOrder_pace : (u.writeOrder n a d p).pace =
    if u.isPacer = true ∧ a = .run then { u.pace with pendingPace := some p } else u.pace := by rw [writeOrder_form]

end Written

/-- Tiers 1 to 3 once the order is written, at a station past its checks without a conflict. -/
theorem writeOrder_topTier {u : State} (ui : u.DriveInv) (on : u.drive.state ≠ .offline) (n a d p) :
    (u.writeOrder n a d p).topTier =
      if u.drive.state = .halted then some .halted else if a ≠ .run then some .idle else none := by
  rw [passed_top (by rw [writeOrder_loader]; exact ui.settled.checked on), writeOrder_halt, writeOrder_orders]
  refine if_congr (halted_latched ui on) rfl (if_congr ?_ rfl rfl)
  simp [OrderUnit.adopt]

/-- An order that finds one of tiers 1 to 3 holding is settled by it. -/
theorem settleAdopted_top {w : State} {x : DriveState} (top : w.topTier = some x) : w.settleAdopted = w.settle := by
  rw [State.settleAdopted, top]

theorem settledState_top {w : State} {x : DriveState} (top : w.topTier = some x) : w.settledState = x := by
  rw [State.settledState, top]

/-- The state's own place among IDLE, HALTED and the underway states. -/
theorem DriveState.underway_of {x : DriveState} (on : x ≠ .offline) (notHalted : x ≠ .halted) (notIdle : x ≠ .idle) :
    x.isUnderway = true := by
  cases x
  case offline => exact absurd rfl on
  case halted => exact absurd rfl notHalted
  case idle => exact absurd rfl notIdle
  all_goals rfl

theorem DriveState.underway_ne {x : DriveState} (underway : x.isUnderway = true) :
    x ≠ .offline ∧ x ≠ .halted ∧ x ≠ .idle := by
  cases x <;> cases underway <;> exact ⟨nofun, nofun, nofun⟩

/-- An adoption from an ORDER frame that is no CLEAR in HALTED goes straight to Drive Control. -/
theorem adopt_plain {u : State} {a : Action} (plain : ¬(u.drive.state = .halted ∧ a = .clear)) (n d p) :
    u.adopt false n a d p = (u.writeOrder n a d p).settleAdopted.afterAdoption := by
  rw [State.adopt, if_neg (by simp)]
  exact congrArg (fun x : State => x.settleAdopted.afterAdoption)
    (if_neg fun k => plain ⟨writeOrder_drive u n a d p ▸ k.1, k.2⟩)

/-! ### STOP and CLEAR -/

/-- An adopted STOP, or a CLEAR outside HALTED: the order written, and IDLE from every underway state. -/
theorem adopt_stops {u : State} (ui : u.DriveInv) (on : u.drive.state ≠ .offline) (n) {a : Action} (d p)
    (stops : a = .stop ∨ a = .clear ∧ u.drive.state ≠ .halted) : u.adopt false n a d p =
      if u.drive.state.isUnderway = true then (u.writeOrder n a d p).transition .idle else u.writeOrder n a d p := by
  have top := writeOrder_topTier ui on n a d p
  have drive := writeOrder_drive u n a d p
  have notRun : a ≠ .run := by rcases stops with rfl | ⟨rfl, -⟩ <;> decide
  have plain : ¬(u.drive.state = .halted ∧ a = .clear) := by
    rcases stops with rfl | ⟨-, free⟩
    · exact fun k => absurd k.2 (by decide)
    · exact fun k => free k.1
  rw [adopt_plain plain]
  generalize u.writeOrder n a d p = w at *
  by_cases halted : u.drive.state = .halted
  · rw [if_pos halted] at top
    rw [settleAdopted_top top, settle_same ((settledState_top top).trans (drive ▸ halted).symm),
      calm_after _ (.inr (.inl (drive ▸ halted))), halted, if_neg (by decide)]
  rw [if_neg halted, if_pos notRun] at top
  by_cases idle : u.drive.state = .idle
  · rw [settleAdopted_top top, settle_same ((settledState_top top).trans (drive ▸ idle).symm),
      calm_after _ (.inl (drive ▸ idle)), idle, if_neg (by decide)]
  · rw [settleAdopted_top top, settle_idle (settledState_top top) (drive ▸ idle),
      calm_after _ (.inl (State.transition_drive_state _ _)), if_pos (DriveState.underway_of on halted idle)]

/-- The stall mark and count clear as the following states are left (R66). -/
theorem StrideMonitor.atTransition_leaves (m : StrideMonitor) (old : DriveState) :
    (m.atTransition old .idle).stallMark = false ∧ (m.atTransition old .idle).consecutiveStalls = 0
    ∧ (m.atTransition .halted .idle).creepCount = 0 :=
  ⟨by cases old <;> rfl, by cases old <;> rfl, rfl⟩

/-- The entry to IDLE, with what it stops of the state left. -/
structure State.ToIdle (w t : State) : Prop where
  state    : t.drive.state = .idle
  output   : t.drive.runOutput = false
  lamp     : t.drive.lamp = false
  turn     : t.drive.direction = w.drive.direction
  rest     : w.drive.state = .run → t.drive.rest = .resting 10
  dwell    : w.drive.state = .dwell → t.drive.dwellTimer = none
  retry    : w.drive.state = .stalled → t.stride.retryPause = none
  census   : w.drive.state = .muster → t.orders.musterTimer = none ∧ t.orders.counting = false
  marks    : t.stride.stallMark = false ∧ t.stride.consecutiveStalls = 0 ∧ t.sensor.faultMark = false
  creep    : w.drive.state = .halted → t.stride.creepCount = 0
  pace     : w.isPacer = true → t.pace.running = false
  status   : t.line.statusSlot = true
  slot     : t.line.claimSlot = none
  claim    : t.claim = ClaimUnit.reset
  holds    : ∀ p, t.holds.recordOf p = none
  governor : t.governor = w.governor
  halt     : t.halt = if w.drive.state = .halted ∨ w.drive.state = .offline then { w.halt with loopClosed := true }
    else w.halt

theorem State.toIdle {w : State} (output : w.drive.runOutput = decide (w.drive.state = .run)) :
    w.ToIdle (w.transition .idle) := by
  have drive := w.transition_drive .idle
  obtain ⟨mark, stalls, creep⟩ := StrideMonitor.atTransition_leaves
    (if w.drive.state = .run then w.stride.switchOff w.config else w.stride) w.drive.state
  have stride := (w.transition_stride .idle).trans (by rw [if_neg (by decide)])
  have line := (w.transition_line .idle).trans ((if_neg (by decide)).trans (if_pos (.inl rfl)))
  exact {
    state := w.transition_drive_state .idle
    output := by rw [drive, output]; cases w.drive.state <;> rfl
    lamp := by rw [drive]; simp
    turn := by rw [drive]; rfl
    rest := fun run => by rw [drive]; exact if_pos run
    dwell := fun dwell => by rw [drive]; exact if_pos dwell
    retry := fun stalled => (w.transition_retryPause .idle).trans (if_pos stalled)
    census := fun muster => by rw [w.transition_orders, if_neg (by decide), if_pos muster]; exact ⟨rfl, rfl⟩
    marks := ⟨by rw [stride]; exact mark, by rw [stride]; exact stalls, by rw [w.transition_sensor]; rfl⟩
    creep := fun halted => by rw [stride, halted] at *; exact creep
    pace := fun pacer => by rw [w.transition_pace, if_pos pacer]; rfl
    status := by rw [line]
    slot := by rw [line]
    claim := (w.transition_claim .idle).trans (if_pos (.inl rfl))
    holds := fun p => by rw [w.transition_holds, if_pos (.inl rfl)]; exact recordOf_empty _ p
    governor := (w.transition_governor .idle).trans (if_neg (by decide))
    halt := by rw [w.transition_halt, if_neg (by decide)]; simp }

/-- The entry reads Drive Control, the halt unit, the governor and the loader of the station it starts from. -/
theorem State.ToIdle.congr {u w t : State} (h : w.ToIdle t) (drive : w.drive = u.drive) (halt : w.halt = u.halt)
    (governor : w.governor = u.governor) (loader : w.loader = u.loader) : u.ToIdle t :=
  { h with
    turn := h.turn.trans (congrArg DriveControl.direction drive)
    rest := fun k => h.rest (by rw [drive]; exact k)
    dwell := fun k => h.dwell (by rw [drive]; exact k)
    retry := fun k => h.retry (by rw [drive]; exact k)
    census := fun k => h.census (by rw [drive]; exact k)
    creep := fun k => h.creep (by rw [drive]; exact k)
    pace := fun k => h.pace ((State.isPacer_congr loader).trans k)
    governor := h.governor.trans governor
    halt := by rw [h.halt, drive, halt] }

/-- An accepted ORDER frame with defined codes and a number ahead is adopted, a pace above 100 as 100. -/
theorem exec_adopts {s : State} {i : Instr} {h : Header} {action direction pace : Byte} {a : Action} {d : Direction}
    (accepts : s.Accepts h .order)
    (frame : i = .stopOrder h direction pace ∧ action = 0 ∨ i = .runOrder h direction pace ∧ action = 1
      ∨ i = .clearOrder h direction pace ∧ action = 2 ∨ i = .orderUndefinedAction h action direction pace)
    (isAction : actionOfCode action = some a) (isDirection : directionOfCode direction = some d)
    (ahead : (s.afterHearing h id).numberAhead h.order = true) :
    exec i s = .next ((s.afterHearing h id).adopt false h.order a d (min pace.toNat 100)) := by
  rw [exec_order frame s, take_adopts accepts isDirection isAction ahead]

/-- Settles O35: IDLE from every underway state; elsewhere the order alone. -/
theorem stopAndClearLeadToIdle : Obligations.StopAndClearLeadToIdle := by
  intro s i h direction pace d inv accepts code u ahead command
  obtain ⟨ui, on⟩ : u.DriveInv ∧ u.drive.state ≠ .offline := heard_facts inv accepts id
  obtain ⟨a, stops, adopts⟩ : ∃ a, (a = .stop ∨ a = .clear ∧ u.drive.state ≠ .halted)
      ∧ exec i s = .next (u.adopt false h.order a d (min pace.toNat 100)) := by
    rcases command with rfl | ⟨rfl, free⟩
    · exact ⟨.stop, .inl rfl, exec_adopts accepts (.inl ⟨rfl, rfl⟩) rfl code ahead⟩
    · exact ⟨.clear, .inr ⟨rfl, free⟩, exec_adopts accepts (.inr (.inr (.inl ⟨rfl, rfl⟩))) rfl code ahead⟩
  clear_value u
  obtain ⟨unset, number, -, turned, paced, -⟩ := adopt_fields u false h.order a d (min pace.toNat 100)
  obtain ⟨outer, tallies, lines⟩ := (State.Outlasts.loud.adopt u false h.order a d (min pace.toNat 100)).facts
  have result := adopt_stops ui on h.order d (min pace.toNat 100) stops
  refine ⟨_, adopts, unset, number, turned, paced, ?_⟩
  generalize u.adopt false h.order a d (min pace.toNat 100) = t at *
  by_cases underway : u.drive.state.isUnderway = true
  · obtain ⟨notOff, notHalted, notIdle⟩ := DriveState.underway_ne underway
    have idle : u.ToIdle t := by
      rw [result, if_pos underway]
      exact (State.toIdle (by rw [writeOrder_drive]; exact ui.contactor.1)).congr (writeOrder_drive u _ _ _ _)
        (writeOrder_halt u _ _ _ _) (writeOrder_governor u _ _ _ _) (writeOrder_loader u _ _ _ _)
    have halt : t.halt = u.halt := idle.halt.trans (if_neg (not_or.mpr ⟨notHalted, notOff⟩))
    exact ⟨idle.holds, idle.claim, idle.slot, fun k => absurd k notHalted, fun k => absurd k notIdle,
      fun _ => ⟨idle.state, idle.output, idle.turn, idle.lamp, idle.status, halt, idle.marks⟩, idle.rest, idle.dwell,
      idle.retry, idle.census, fun _ => idle.pace, idle.governor, outer, tallies, lines⟩
  · rw [if_neg underway] at result
    have drive : t.drive = u.drive := by rw [result, writeOrder_drive]
    have halt : t.halt = u.halt := by rw [result, writeOrder_halt]
    refine ⟨fun p => by rw [result, writeOrder_holds]; exact recordOf_empty _ p, by rw [result, writeOrder_claim],
      by rw [result, writeOrder_claimSlot], fun _ => ⟨drive, halt⟩, fun _ => ⟨drive, halt⟩, fun k => absurd k underway,
      fun run => absurd (by rw [run]; rfl) underway, fun dwell => absurd (by rw [dwell]; rfl) underway,
      fun stalled => absurd (by rw [stalled]; rfl) underway, fun muster => absurd (by rw [muster]; rfl) underway,
      fun k => absurd k underway, by rw [result, writeOrder_governor], outer, tallies, lines⟩

/-! ### CLEAR in HALTED -/

theorem State.leadBeyondHalt_iff (u : State) : u.leadBeyondHalt = true ↔
    ∃ lead : Int, u.governor.lead = some lead ∧ u.governor.levels.halt ≤ (lead.natAbs : Int) := by
  rw [State.leadBeyondHalt]
  cases u.governor.lead <;> simp

/-- An adopted CLEAR in HALTED is decided on the lead. -/
theorem adopt_clear_halted {u : State} (halted : u.drive.state = .halted) (n d p) : u.adopt false n .clear d p =
    (u.writeOrder n .clear d p).decideClear.settleAdopted.afterAdoption := by
  rw [State.adopt, if_neg (by simp)]
  exact congrArg (fun x : State => x.settleAdopted.afterAdoption)
    (if_pos ⟨(writeOrder_drive u n .clear d p).symm ▸ halted, rfl⟩)

/-- Settles O36: the halt kept, or the latch cleared and the station settled to IDLE. -/
theorem clearDecidesTheHalt : Obligations.ClearDecidesTheHalt := by
  intro s h direction pace d inv accepts code u ahead halted kept
  obtain ⟨ui, on⟩ : u.DriveInv ∧ u.drive.state ≠ .offline := heard_facts inv accepts id
  have adopts : exec (.clearOrder h direction pace) s = .next (u.adopt false h.order .clear d (min pace.toNat 100)) :=
    exec_adopts accepts (.inr (.inr (.inl ⟨rfl, rfl⟩))) rfl code ahead
  clear_value u
  obtain ⟨unset, number, cleared, turned, -⟩ := adopt_fields u false h.order .clear d (min pace.toNat 100)
  obtain ⟨outer, tallies, lines⟩ := (State.Outlasts.loud.adopt u false h.order .clear d (min pace.toNat 100)).facts
  have result := adopt_clear_halted halted h.order d (min pace.toNat 100)
  have keeps : kept ↔ u.leadBeyondHalt = true := u.leadBeyondHalt_iff.symm
  let w := u.writeOrder h.order .clear d (min pace.toNat 100)
  have lead : w.leadBeyondHalt = u.leadBeyondHalt := leadBeyond_congr (writeOrder_governor u _ _ _ _)
  have drive : w.drive = u.drive := writeOrder_drive u _ _ _ _
  refine ⟨_, adopts, unset, number, cleared, turned, ?_⟩
  generalize u.adopt false h.order .clear d (min pace.toNat 100) = t at *
  by_cases stays : u.leadBeyondHalt = true
  · have top := writeOrder_topTier ui on h.order .clear d (min pace.toNat 100)
    rw [if_pos halted] at top
    have same : t = w := by
      rw [result, State.decideClear, if_pos (lead.trans stays), settleAdopted_top top,
        settle_same ((settledState_top top).trans (drive ▸ halted).symm), calm_after _ (.inr (.inl (drive ▸ halted)))]
    exact ⟨fun _ => ⟨same ▸ drive, same ▸ writeOrder_halt u _ _ _ _⟩, fun no => absurd (keeps.mpr stays) no,
      same ▸ writeOrder_governor u _ _ _ _, outer, tallies, lines⟩
  · let x := w.setHalt { u.halt with latched := false }
    have top : x.topTier = some .idle := by
      rw [passed_top (by rw [State.setHalt_loader, writeOrder_loader]; exact ui.settled.checked on)]
      exact (if_neg (by simp [x])).trans (if_pos (.inr (by rw [State.setHalt_orders, writeOrder_orders]; simp [OrderUnit.adopt])))
    have released : t = x.transition .idle := by
      rw [result, State.decideClear, if_neg (by rw [lead]; exact stays), writeOrder_halt, settleAdopted_top top,
        settle_idle (settledState_top top) (by rw [State.setHalt_drive, drive, halted]; decide),
        calm_after _ (.inl (State.transition_drive_state _ _))]
    have idle : x.ToIdle t := by
      rw [released]
      exact State.toIdle (by rw [State.setHalt_drive, drive]; exact ui.contactor.1)
    have here : x.drive.state = .halted := by rw [State.setHalt_drive, drive, halted]
    exact ⟨fun kept => absurd (keeps.mp kept) stays, fun _ => ⟨idle.state, idle.lamp, idle.output,
      idle.turn.trans (congrArg DriveControl.direction drive), idle.halt.trans (if_pos (.inl here)), idle.creep here,
      idle.status⟩, idle.governor.trans (writeOrder_governor u _ _ _ _), outer, tallies, lines⟩

end Sys2Proof.Machine
end

section
/-! Proof of the statement on an adopted RUN (O37): the four ways it goes on, by the halt, the direction and the state. -/

open Sys2Proof Sys2Proof.Machine Host

namespace Sys2Proof.Machine

/-! ### The four ways -/

/-- A halted station keeps its halt: the order is written, and nothing else. -/
theorem adopt_run_halted {u : State} (ui : u.DriveInv) (halted : u.drive.state = .halted) (n d p) :
    u.adopt false n .run d p = u.writeOrder n .run d p := by
  have top := writeOrder_topTier ui (by rw [halted]; decide) n .run d p
  have drive := writeOrder_drive u n .run d p
  rw [if_pos halted] at top
  rw [adopt_plain (by simp), settleAdopted_top top, settle_same ((settledState_top top).trans (drive ▸ halted).symm),
    calm_after _ (.inr (.inl (drive ▸ halted)))]

/-- With no line of tiers 1 to 3 Drive Control takes the order by its direction and the state. -/
theorem settleAdopted_none {w : State} (top : w.topTier = none) : w.settleAdopted =
    if w.orders.direction ≠ w.drive.direction then w.transition .dwell
    else if w.drive.state = .idle then w.enterMuster else w.settle := by
  rw [State.settleAdopted, top]

section
variable {u : State} (ui : u.DriveInv) (on : u.drive.state ≠ .offline) (free : u.drive.state ≠ .halted)
include ui on free

theorem adopt_run_free (n d p) : u.adopt false n .run d p =
    (if d ≠ u.drive.direction then (u.writeOrder n .run d p).transition .dwell
      else if u.drive.state = .idle then (u.writeOrder n .run d p).enterMuster
      else (u.writeOrder n .run d p).settle).afterAdoption := by
  have top := writeOrder_topTier ui on n .run d p
  rw [if_neg free, if_neg (by simp)] at top
  rw [adopt_plain (by simp), settleAdopted_none top, writeOrder_drive, writeOrder_orders]
  rfl

/-- Against the DIRECTION output: a dwell. -/
theorem adopt_run_reverses {d : Direction} (turns : d ≠ u.drive.direction) (n p) :
    u.adopt false n .run d p = (u.writeOrder n .run d p).transition .dwell := by
  rw [adopt_run_free ui on free, if_pos turns, calm_after _ (.inr (.inr (State.transition_drive_state _ _)))]

/-- From IDLE in the direction of the output: the census. -/
theorem adopt_run_idle {d : Direction} (same : d = u.drive.direction) (idle : u.drive.state = .idle) (n p) :
    u.adopt false n .run d p = (u.writeOrder n .run d p).enterMuster.afterAdoption := by
  rw [adopt_run_free ui on free, if_neg (not_not.mpr same), if_pos idle]

/-- Underway in the direction of the output: the state settled again. -/
theorem adopt_run_underway {d : Direction} (same : d = u.drive.direction) (idle : u.drive.state ≠ .idle) (n p) :
    u.adopt false n .run d p = (u.writeOrder n .run d p).settle.afterAdoption := by
  rw [adopt_run_free ui on free, if_neg (not_not.mpr same), if_neg idle]

end

/-! ### What is kept from the order written -/

/-- A quiet relation that the entry to DWELL keeps too is kept from the order written. -/
theorem adopt_run_keeps {R : State → State → Prop} (q : Quiet R) {u : State} {n : Byte} {d : Direction} {p : Nat}
    (dwell : R (u.writeOrder n .run d p) ((u.writeOrder n .run d p).transition .dwell)) :
    R (u.writeOrder n .run d p) (u.adopt false n .run d p) := by
  rw [adopt_plain (by simp)]
  refine q.trans ?_ (q.afterAdoption _)
  rw [State.settleAdopted]
  split
  · exact q.settle _
  split
  · exact dwell
  split
  · exact q.enterMuster _
  · exact q.settle _

/-- Without a reversal every quiet relation is. -/
theorem adopt_run_forward {R : State → State → Prop} (q : Quiet R) {u : State} (ui : u.DriveInv)
    (on : u.drive.state ≠ .offline) {d : Direction} (same : d = u.drive.direction) (n p) :
    R (u.writeOrder n .run d p) (u.adopt false n .run d p) := by
  by_cases halted : u.drive.state = .halted
  · rw [adopt_run_halted ui halted]; exact q.refl _
  by_cases idle : u.drive.state = .idle
  · rw [adopt_run_idle ui on halted same idle]; exact q.trans (q.enterMuster _) (q.afterAdoption _)
  · rw [adopt_run_underway ui on halted same idle]; exact q.trans (q.settle _) (q.afterAdoption _)

/-! ### The state once the order is written -/

/-- An underway station has an order to run, so that the order written decides as the one in force did. -/
theorem written_settledState {u : State} (ui : u.DriveInv) (stays : u.drive.state = .dwell ∨ u.drive.state = .muster
    ∨ u.drive.state = .wait ∨ u.drive.state = .run ∨ u.drive.state = .stalled) (n d p) :
    (u.writeOrder n .run d p).settledState = u.drive.state := by
  have underway : u.drive.state.isUnderway = true := by rcases stays with k | k | k | k | k <;> rw [k] <;> rfl
  rw [adopted_settledState ui underway rfl]
  split
  case isTrue moving =>
    have notHeld : u.drive.state ≠ .held := by rintro held; rw [held] at stays; simp at stays
    have free : u.holds.isEmpty = true := moving_empty ui (moving.imp id (·.resolve_right notHeld))
    have here := ui.settled.state_eq
    rw [ui.settled.upperTier_none moving, Option.getD_none, u.movingTier_eq, free, if_neg (by decide)] at here
    exact here.symm
  case isFalse => rfl

/-! ### The census of an adopted RUN -/

/-- The station as an adopted RUN leaves it before Drive Control takes the order, without the claim it empties. -/
def State.writtenRun (u : State) (n : Byte) (d : Direction) (p : Nat) : State :=
  { u with
    orders := { u.orders with unset := false, number := n, action := .run, direction := d, pace := p }
    holds := { u.holds with records := Vector.replicate 32 none }
    pace := if u.isPacer = true then { u.pace with pendingPace := some p } else u.pace }

/-- A state that the order written and its loose ends agree with in what a census reads. -/
structure State.CensusAlike (v t : State) : Prop where
  blocker : t.censusBlocker = v.censusBlocker
  exits   : t.stateAfterMuster = v.stateAfterMuster

theorem writtenRun_alike (u : State) (n d p) : (u.writtenRun n d p).CensusAlike (u.writeOrder n .run d p) := by
  have pace : (u.writeOrder n .run d p).pace = (u.writtenRun n d p).pace := by
    rw [writeOrder_pace]
    exact if_congr (by simp) rfl rfl
  have holds : (u.writeOrder n .run d p).holds = (u.writtenRun n d p).holds := writeOrder_holds u n .run d p
  exact {
    blocker := censusBlocker_congr (by rw [writeOrder_halt]; rfl) (by rw [writeOrder_governor]; rfl)
      (by rw [writeOrder_roster]; rfl) (by rw [writeOrder_orders]; rfl) (by rw [writeOrder_orders]; rfl)
      (by rw [writeOrder_loader]; rfl)
    exits := stateAfterMuster_congr (by rw [writeOrder_governor]; rfl) (by rw [holds]) (by rw [writeOrder_loader]; rfl)
      (by rw [pace]) (by rw [pace]) (by rw [writeOrder_drive]; rfl) }

/-- The entry to MUSTER with the contactor off changes nothing that a census reads. -/
theorem transition_muster_alike {w : State} (off : w.drive.state ≠ .run) : w.CensusAlike (w.transition .muster) where
  blocker := censusBlocker_congr
    (by rw [State.transition_halt, if_neg (by simp), if_neg fun k => absurd k.1 (by decide)])
    ((w.transition_governor .muster).trans (if_neg (by decide))) (w.transition_roster .muster)
    (by rw [w.transition_orders, if_pos rfl]) (by rw [w.transition_orders, if_pos rfl]) (w.transition_loader .muster)
  exits := stateAfterMuster_congr ((w.transition_governor .muster).trans (if_neg (by decide)))
    (by rw [w.transition_holds, if_neg (by decide)]) (w.transition_loader .muster) (transition_pending w .muster)
    (by rw [w.transition_pace]; split <;> rfl) (by rw [w.transition_rest, if_neg off])

theorem State.CensusAlike.trans {a b c : State} (h : a.CensusAlike b) (k : b.CensusAlike c) : a.CensusAlike c :=
  ⟨k.blocker.trans h.blocker, k.exits.trans h.exits⟩

/-- No station is in MUSTER once its census is complete. -/
theorem stateAfterMuster_ne (s : State) : s.stateAfterMuster ≠ .muster := by
  rw [State.stateAfterMuster]
  split_ifs <;> decide

/-- The last stage of an adoption in MUSTER. -/
theorem afterAdoption_muster {v w : State} (top : w.topTier = none) (state : w.drive.state = .muster)
    (counting : w.orders.counting = true) (alike : v.CensusAlike w) :
    (∀ b, v.censusBlocker = some b → w.afterAdoption =
      w.requestStatus.setOrders { w.orders with blocker := some b })
    ∧ (v.censusBlocker = none → w.afterAdoption.drive.state = v.stateAfterMuster) := by
  have blocker : w.requestStatus.censusBlocker = v.censusBlocker :=
    (censusBlocker_congr rfl rfl rfl rfl rfl rfl).trans alike.blocker
  rw [after_muster state]
  refine ⟨fun b blocked => evaluate_some counting (blocker.trans blocked), fun clear => ?_⟩
  obtain ⟨after, -⟩ := evaluate_complete (s := w.requestStatus) top state counting (blocker.trans clear)
  rw [after, ← alike.exits]
  exact stateAfterMuster_congr rfl rfl rfl rfl rfl Iff.rfl

/-- The entry to MUSTER and the last stage of an adoption: blocked twice alike, or complete at the first evaluation. -/
theorem enterMuster_adopted {v w : State} (top : w.topTier = none) (off : w.drive.state ≠ .run)
    (alike : v.CensusAlike w) :
    (∀ b, v.censusBlocker = some b → w.enterMuster.afterAdoption.drive.state = .muster
      ∧ w.enterMuster.afterAdoption.orders.counting = true
      ∧ w.enterMuster.afterAdoption.orders.musterTimer = some (10 * w.config.musterTime.toNat)
      ∧ w.enterMuster.afterAdoption.orders.blocker = some b)
    ∧ (v.censusBlocker = none → w.enterMuster.afterAdoption.drive.state = v.stateAfterMuster) := by
  have entry := alike.trans (transition_muster_alike off)
  have state := w.transition_drive_state .muster
  have orders := (w.transition_orders .muster).trans (if_pos rfl)
  have counting : (w.transition .muster).orders.counting = true := by rw [orders]
  have topAfter : (w.transition .muster).topTier = none := (w.transition_topTier .muster).trans top
  rw [State.enterMuster]
  generalize w.transition .muster = e at *
  refine ⟨fun b blocked => ?_, fun clear => ?_⟩
  · have found : e.censusBlocker = some b := entry.blocker.trans blocked
    have told : v.CensusAlike (e.setOrders { e.orders with blocker := some b }) := entry.trans
      ⟨blocker_set e (some b), stateAfterMuster_congr rfl rfl rfl rfl rfl Iff.rfl⟩
    rw [evaluate_some counting found, (afterAdoption_muster (w := e.setOrders { e.orders with blocker := some b })
      topAfter state counting told).1 b blocked]
    exact ⟨state, counting, congrArg OrderUnit.musterTimer orders, rfl⟩
  · obtain ⟨after, -⟩ := evaluate_complete topAfter state counting (entry.blocker.trans clear)
    rw [(afterAdoption_drive _ (by rw [after]; exact stateAfterMuster_ne e)).2, after, entry.exits]

/-! ### The claim of an adopted RUN -/

/-- Between the following states the stall mark and the fault mark stand (R53, R66). -/
theorem transition_marks (w : State) {x : DriveState} (following : x.isFollowing = true) :
    (w.transition x).stride.stallMark = w.stride.stallMark
    ∧ (w.transition x).sensor.faultMark = w.sensor.faultMark := by
  have off : (if w.drive.state = .run then w.stride.switchOff w.config else w.stride).stallMark = w.stride.stallMark := by
    split
    · exact StrideMonitor.switchOff_stallMark _ _
    · rfl
  rw [w.transition_stride, w.transition_sensor, StrideMonitor.atTransition_moving _ _ (.inl following),
    SensorPort.atTransition_moving _ (.inl following), ← off]
  refine ⟨?_, rfl⟩
  split <;> split <;> rfl

/-- A settling that ends in a following state keeps both marks. -/
theorem settle_marks {w : State} (output : w.drive.runOutput = decide (w.drive.state = .run))
    (following : w.settle.isFollowing = true) :
    w.settle.stride.stallMark = w.stride.stallMark ∧ w.settle.sensor.faultMark = w.sensor.faultMark := by
  by_cases same : w.settledState = w.drive.state
  · rw [settle_same same]
    exact ⟨rfl, rfl⟩
  · have only := ClaimOnly.report (w.transition w.settledState) .lag ((w.transition w.settledState).governor.lagMark
      && (w.transition w.settledState).isFollowing && !(w.transition w.settledState).isPacer)
    have into := settle_into same output following
    rw [into, State.isFollowing, State.reportLag, only.drive, State.transition_drive_state] at following
    rw [into, State.reportLag, only.stride, only.sensor]
    exact transition_marks w following

/-- An adopted RUN at a follower that goes on following: the claim rises afresh from the three suppliers (R87). -/
theorem adopt_run_claims {u : State} (ui : u.DriveInv) (follower : u.isPacer = false) (following : u.isFollowing = true)
    {d : Direction} (same : d = u.drive.direction) (n p) (goesOn : (u.adopt false n .run d p).isFollowing = true) :
    (u.adopt false n .run d p).claim.reasons =
      { lag := u.governor.lagMark, stall := u.stride.stallMark, sensor := u.sensor.faultMark } := by
  have notMuster := following_not_muster following
  obtain ⟨notOff, notIdle, -, -, notHalted⟩ := DriveState.following_ne following
  have drive := writeOrder_drive u n .run d p
  have loader := writeOrder_loader u n .run d p
  have governor := writeOrder_governor u n .run d p
  have stride := writeOrder_stride u n .run d p
  have sensor := writeOrder_sensor u n .run d p
  rw [adopt_run_underway ui notOff notHalted same notIdle] at goesOn ⊢
  generalize u.writeOrder n .run d p = w at *
  have after : w.settle.drive.state ≠ .muster := settle_not_muster (by rw [drive]; exact notMuster)
  have settled : w.settle.isFollowing = true := by
    rw [State.isFollowing, (afterAdoption_drive _ after).2] at goesOn
    exact goesOn
  obtain ⟨stall, fault⟩ := settle_marks (w := w) (by rw [drive]; exact ui.contactor.1) settled
  rw [State.afterAdoption, if_neg after, if_pos settled, reports_claim _ ?_ settled, stall, fault,
    (State.SameBend.quiet.settle w).governor, governor, stride, sensor]
  exact (State.isPacer_congr ((State.SameOuter.quiet.settle w).loader.trans loader)).trans follower

/-! ### The statement -/

/-- The pending pace is the order's, but where a census may take it up at once (R95). -/
theorem adopt_run_pending {u : State} (ui : u.DriveInv) (on : u.drive.state ≠ .offline) (pacer : u.isPacer = true)
    (notMuster : u.drive.state ≠ .muster) (notIdle : u.drive.state ≠ .idle) (n d p) :
    (u.adopt false n .run d p).pace.pendingPace = some p := by
  have written : (u.writeOrder n .run d p).pace.pendingPace = some p := by rw [writeOrder_pace, if_pos ⟨pacer, rfl⟩]
  by_cases halted : u.drive.state = .halted
  · rw [adopt_run_halted ui halted, written]
  by_cases same : d = u.drive.direction
  · have after : (u.writeOrder n .run d p).settle.drive.state ≠ .muster :=
      settle_not_muster (by rw [writeOrder_drive]; exact notMuster)
    rw [adopt_run_underway ui on halted same notIdle, (afterAdoption_drive _ after).1.pace, settle_pending, written]
  · rw [adopt_run_reverses ui on halted same, transition_pending, written]

/-- A state that the order written does not change: the drive and the retry pause stay. -/
theorem adopt_run_stays {u : State} (ui : u.DriveInv) (stays : u.drive.state = .dwell ∨ u.drive.state = .wait
    ∨ u.drive.state = .run ∨ u.drive.state = .stalled) {d : Direction} (same : d = u.drive.direction) (n p) :
    (u.adopt false n .run d p).drive = u.drive
    ∧ (u.adopt false n .run d p).stride.retryPause = u.stride.retryPause := by
  have goes := written_settledState ui (stays.imp id .inr) n d p
  have drive := writeOrder_drive u n .run d p
  rw [adopt_run_underway ui (by rcases stays with k | k | k | k <;> rw [k] <;> decide)
    (by rcases stays with k | k | k | k <;> rw [k] <;> decide) same
    (by rcases stays with k | k | k | k <;> rw [k] <;> decide),
    settle_same (goes.trans (congrArg DriveControl.state drive.symm))]
  obtain ⟨only, -⟩ := afterAdoption_drive (u.writeOrder n .run d p)
    (by rw [drive]; rcases stays with k | k | k | k <;> rw [k] <;> decide)
  exact ⟨only.drive.trans drive, by rw [only.stride, writeOrder_stride]⟩

/-- A HELD station that an adopted RUN frees goes on by the request. -/
theorem adopt_run_held {u : State} (ui : u.DriveInv) (held : u.drive.state = .held) (calm : u.leadBeyondHalt = false)
    {d : Direction} (same : d = u.drive.direction) (n p) : (u.adopt false n .run d p).drive.state =
      if u.runRequest = true ∧ u.drive.rest = .rested then .run else .wait := by
  have calm' : (u.writeOrder n .run d p).leadBeyondHalt = false :=
    (leadBeyond_congr (writeOrder_governor u n .run d p)).trans calm
  have after : (u.writeOrder n .run d p).settle.drive.state ≠ .muster :=
    settle_not_muster (by rw [writeOrder_drive, held]; decide)
  rw [adopt_run_underway ui (by rw [held]; decide) (by rw [held]; decide) same (by rw [held]; decide),
    (afterAdoption_drive _ after).2, settle_state calm', adopted_settledState ui (by rw [held]; rfl) rfl,
    if_pos (.inr (.inr held))]

/-- Settles O37: clause by clause, each by the way the order goes on in the state it names. -/
theorem runOrderByState : Obligations.RunOrderByState := by
  intro s h direction pace d inv accepts code u ahead v same
  obtain ⟨ui, on⟩ : u.DriveInv ∧ u.drive.state ≠ .offline := heard_facts inv accepts id
  have adopts : exec (.runOrder h direction pace) s = .next (u.adopt false h.order .run d (min pace.toNat 100)) :=
    exec_adopts accepts (.inr (.inl ⟨rfl, rfl⟩)) rfl code ahead
  clear_value u
  have alike : v.CensusAlike _ := writtenRun_alike u h.order d (min pace.toNat 100)
  clear_value v
  generalize min pace.toNat 100 = p at *
  generalize h.order = n at *
  obtain ⟨unset, number, action, turned, paced, -⟩ := adopt_fields u false n .run d p
  obtain ⟨outer, tallies, lines⟩ := (State.Outlasts.loud.adopt u false n .run d p).facts
  have top (free : u.drive.state ≠ .halted) : (u.writeOrder n .run d p).topTier = none :=
    (writeOrder_topTier ui on n .run d p).trans ((if_neg free).trans (if_neg (by simp)))
  have drive := writeOrder_drive u n .run d p
  refine ⟨_, adopts, unset, number, action, turned, paced, ?holds, ?announced, fun halted => ?halted,
    fun free turns => ?reverses, fun keeps => ?forward, fun idle keeps => ?idle, fun muster keeps => ?muster,
    fun stays keeps => adopt_run_stays ui stays keeps n p, fun held keeps calm => adopt_run_held ui held calm keeps n p,
    fun pacer notMuster notIdle => adopt_run_pending ui on pacer notMuster notIdle n d p,
    fun follower following goesOn => ?claim, outer, tallies, lines⟩
  case holds =>
    refine adopt_run_keeps empty_quiet (fun empty => ?_) fun p => ?_
    · rw [State.transition_holds, if_neg (by decide)]; exact empty
    · rw [writeOrder_holds]; exact recordOf_empty _ p
  case announced =>
    exact adopt_run_keeps announced_loud.toQuiet (announced_loud.dwell _) (by rw [writeOrder_claim]; rfl)
  case halted =>
    rw [adopt_run_halted ui halted]
    exact ⟨drive, writeOrder_halt u n .run d p⟩
  case reverses =>
    obtain ⟨state, turn, output, timer, governor, rest, census, retry, marks⟩ :=
      dwell_stage (w := u.writeOrder n .run d p) (by rw [drive]; exact ui.contactor.1)
    rw [adopt_run_reverses ui on free turns]
    rw [drive] at rest census retry
    rw [writeOrder_governor] at governor
    rw [writeOrder_orders] at turn
    rw [State.config, writeOrder_loader] at timer
    exact ⟨state, turn, output, timer, governor, rest, census, retry, marks⟩
  case forward =>
    obtain ⟨governor, direction⟩ := adopt_run_forward State.SameBend.quiet ui on keeps n p
    exact ⟨direction.trans (by rw [drive]; exact keeps.symm), governor.trans (writeOrder_governor u n .run d p)⟩
  case idle =>
    have free : u.drive.state ≠ .halted := by rw [idle]; decide
    rw [adopt_run_idle ui on free keeps idle]
    obtain ⟨blocked, clear⟩ := enterMuster_adopted (top free) (by rw [drive, idle]; decide) alike
    rw [State.config, writeOrder_loader] at blocked
    exact ⟨blocked, clear⟩
  case muster =>
    have free : u.drive.state ≠ .halted := by rw [muster]; decide
    have counting : (u.writeOrder n .run d p).orders.counting = true := by
      rw [writeOrder_orders]; exact counting_of_muster ui muster
    have goes := written_settledState ui (.inr (.inl muster)) n d p
    obtain ⟨blocked, clear⟩ := afterAdoption_muster (top free) (by rw [drive, muster]) counting alike
    rw [adopt_run_underway ui on free keeps (by rw [muster]; decide),
      settle_same (goes.trans (congrArg DriveControl.state drive.symm))]
    refine ⟨fun b found => ?_, clear⟩
    rw [blocked b found]
    exact ⟨drive, counting, by rw [State.setOrders_orders, writeOrder_orders]; rfl, rfl, rfl⟩
  case claim =>
    have keeps : d = u.drive.direction := by
      by_contra turns
      rw [adopt_run_reverses ui on (DriveState.following_ne following).2.2.2.2 turns, State.isFollowing,
        State.transition_drive_state] at goesOn
      cases goesOn
    exact adopt_run_claims ui follower following keeps n p goesOn

end Sys2Proof.Machine
end

section
/-! Proof of the statement on the panel's STATUS (O38): what it catches up on, and the halt unit and the census after it. -/

open Sys2Proof Sys2Proof.Machine Host

namespace Sys2Proof.Machine

/-! ### Catching up -/

/-- The number and the order a panel's STATUS carries to be adopted (R121). -/
def State.Carries (u : State) (n : Byte) (b : StatusBody) : Prop := b.flags.getLsbD 0 = false ∧ u.numberAhead n = true

theorem catchUp_not_carried {u : State} {n : Byte} {b : StatusBody} (no : ¬u.Carries n b) : u.catchUp n b = u := by
  rw [State.catchUp]
  split
  · rfl
  · next set => exact if_neg fun ahead => no ⟨Bool.eq_false_of_not_eq_true set, ahead⟩

/-- A STATUS that carries an order is judged on its codes. -/
theorem catchUp_carried {u : State} {n : Byte} {b : StatusBody} (carried : u.Carries n b) : u.catchUp n b =
    match actionOfCode (b.actionDirection >>> 4), directionOfCode (b.actionDirection &&& 0x0F) with
    | some action, some direction => u.adopt true n action direction (paceOfField b.pace)
    | none, _ => u.refuseOrder
    | some _, none => u.refuseOrder := by
  obtain ⟨set, ahead⟩ := carried
  unfold State.catchUp
  exact (if_neg (by rw [orderUnsetFlag, set]; decide)).trans (if_pos ahead)

/-- Beside a RUN that finds the order unset, a catch-up adopts as an ORDER frame does. -/
theorem adopt_catchUp {u : State} {a : Action} (known : ¬(a = .run ∧ u.orders.unset = true)) (n d p) :
    u.adopt true n a d p = u.adopt false n a d p := by
  unfold State.adopt
  rw [if_neg (fun k : true = true ∧ a = .run ∧ u.orders.unset = true => known k.2),
    if_neg (fun k : false = true ∧ a = .run ∧ u.orders.unset = true => absurd k.1 (by decide))]

/-- A RUN by catch-up that finds the order unset asks for a RESTART halt (R123). -/
theorem adopt_restart {u : State} (unset : u.orders.unset = true) (n d p) : u.adopt true n .run d p =
    ((u.writeOrder n .run d p).raiseHalt .restart (some u.own)).afterAdoption := by
  rw [State.adopt, if_pos ⟨rfl, rfl, unset⟩]

theorem catchUp_takes {u : State} {n : Byte} {b : StatusBody} (carried : u.Carries n b)
    (known : b.actionDirection >>> 4 ≠ 1 ∨ u.orders.unset = false) : u.catchUp n b =
      u.takeOrder n (b.actionDirection >>> 4) (b.actionDirection &&& 0x0F) b.pace := by
  rw [catchUp_carried carried, State.takeOrder]
  cases isAction : actionOfCode (b.actionDirection >>> 4) with
  | none => rfl
  | some a =>
    cases directionOfCode (b.actionDirection &&& 0x0F) with
    | none => rfl
    | some d =>
      have notRestart : ¬(a = .run ∧ u.orders.unset = true) := by
        rintro ⟨rfl, unset⟩
        rcases known with other | set
        · exact other (action_run.mp isAction)
        · exact absurd (set.symm.trans unset) (by decide)
      exact (adopt_catchUp notRestart _ _ _).trans (if_pos carried.2).symm

/-! ### The evaluation after it -/

/-- Where no census counts an evaluation does nothing. -/
theorem evaluate_idle {s : State} (idle : s.orders.counting = false) : s.evaluateCensus = s :=
  if_neg (by rw [idle]; decide)

/-- An origin refined changes the record alone. -/
theorem refineOrigin_setHalt (u : State) (h : Header) (b : StatusBody) : ∃ x, u.refineOrigin h b = u.setHalt x := by
  rw [State.refineOrigin]
  split
  · split
    · exact ⟨_, rfl⟩
    · exact ⟨u.halt, rfl⟩
  · exact ⟨u.halt, rfl⟩

/-- A record with an origin is refined no more. -/
theorem refineOrigin_known {u : State} (known : u.halt.record.origin ≠ none) (h b) : u.refineOrigin h b = u :=
  if_neg fun k => known k.2.2.1

/-- The STATUS of the panel, block after block. -/
theorem deliver_panel {h : Header} (panel : h.source = 0) (u : State) (b : StatusBody) :
    u.deliverStatus h b = ((u.catchUp h.order b).refineOrigin h b).evaluateCensus := by
  rw [State.deliverStatus, if_pos panel]

/-- A STATUS that changes no order, outside MUSTER and in it. -/
theorem refine_then_evaluate {u : State} (ui : u.DriveInv) (timed : u.TimerInv) (h : Header) (b : StatusBody) :
    (u.drive.state ≠ .muster → (u.refineOrigin h b).evaluateCensus.drive.state = u.drive.state)
    ∧ (u.drive.state = .muster →
        (∀ x, u.censusBlocker = some x → (u.refineOrigin h b).evaluateCensus.drive.state = .muster
          ∧ (u.refineOrigin h b).evaluateCensus.orders.counting = true
          ∧ (u.refineOrigin h b).evaluateCensus.orders.blocker = some x)
        ∧ (u.censusBlocker = none → (u.refineOrigin h b).evaluateCensus.drive.state = u.stateAfterMuster
          ∧ (u.refineOrigin h b).evaluateCensus.orders.counting = false
          ∧ (u.refineOrigin h b).evaluateCensus.orders.musterTimer = none)) := by
  refine ⟨fun other => ?_, fun muster => ?_⟩
  · obtain ⟨x, refined⟩ := refineOrigin_setHalt u h b
    have idle : u.orders.counting = false := Bool.eq_false_of_not_eq_true fun counts => other (timed.census (.inl counts))
    rw [refined, evaluate_idle (s := u.setHalt x) idle]
    rfl
  · have counting := counting_of_muster ui muster
    rw [refine_calm (muster_not_latched ui muster)]
    refine ⟨fun x found => ?_, fun clear => ?_⟩
    · rw [evaluate_some counting found]
      exact ⟨muster, counting, rfl⟩
    · obtain ⟨state, timer, idle, -⟩ := evaluate_complete (ui.topTier_none (.inr muster)) muster counting clear
      exact ⟨state, idle, timer⟩

/-! ### The statement -/

/-- Both codes of a STATUS that carries an order are defined, and it is adopted; or it is refused. -/
theorem catchUp_adopts {u : State} {n : Byte} {b : StatusBody} (carried : u.Carries n b)
    (isAction : (b.actionDirection >>> 4).toNat ≤ 2) (isDirection : (b.actionDirection &&& 0x0F).toNat ≤ 1) :
    ∃ a d, actionOfCode (b.actionDirection >>> 4) = some a ∧ directionOfCode (b.actionDirection &&& 0x0F) = some d
      ∧ u.catchUp n b = u.adopt true n a d (min b.pace.toNat 100) := by
  obtain ⟨a, action⟩ := Option.ne_none_iff_exists'.mp (mt action_of_undefined.mp (not_not.mpr isAction))
  obtain ⟨d, direction⟩ := Option.ne_none_iff_exists'.mp (mt direction_of_undefined.mp (not_not.mpr isDirection))
  refine ⟨a, d, action, direction, ?_⟩
  rw [catchUp_carried carried, action, direction]
  rfl

theorem catchUp_refuses {u : State} {n : Byte} {b : StatusBody} (carried : u.Carries n b)
    (bad : ¬((b.actionDirection >>> 4).toNat ≤ 2 ∧ (b.actionDirection &&& 0x0F).toNat ≤ 1)) :
    u.catchUp n b = u.refuseOrder := by
  rw [catchUp_carried carried]
  cases isAction : actionOfCode (b.actionDirection >>> 4) with
  | none => rfl
  | some a =>
    cases isDirection : directionOfCode (b.actionDirection &&& 0x0F) with
    | none => rfl
    | some d => exact absurd ⟨(action_of_code isAction).2, (direction_of_code isDirection).2⟩ bad

/-- A RUN caught up in IDLE with the order unset: a RESTART halt with the own position as origin. -/
theorem restart_halts {u : State} (ui : u.DriveInv) (timed : u.TimerInv) (idle : u.drive.state = .idle)
    (unset : u.orders.unset = true) (n d p) (h : Header) (b : StatusBody) :
    State.HaltsWith { u with orders := { u.orders with unset := false, number := n } }
      ((u.adopt true n .run d p).refineOrigin h b).evaluateCensus .restart (some u.own) .idle := by
  have drive := writeOrder_drive u n .run d p
  have pace := writeOrder_pace u n .run d p
  have orders := writeOrder_orders u n .run d p
  have halts := haltsWith_raise (u.writeOrder n .run d p) .restart (some u.own) (by rw [drive]; exact ui.contactor.1)
    (by rw [drive, idle]; rfl)
  have quiet : ((u.writeOrder n .run d p).raiseHalt .restart (some u.own)).orders.counting = false := by
    have notCounting : u.orders.counting = false := Bool.eq_false_of_not_eq_true fun counts => by
      have := timed.census (.inl counts); rw [idle] at this; cases this
    rw [State.raiseHalt, drive, idle, if_neg (by decide), if_pos (by decide), enterHalted_orders, drive, idle,
      if_neg (by decide), orders]
    exact notCounting
  rw [adopt_restart unset]
  have governor := writeOrder_governor u n .run d p
  have stride := writeOrder_stride u n .run d p
  have time := writeOrder_localTime u n .run d p
  have loader := writeOrder_loader u n .run d p
  have transmitter := writeOrder_transmitter u n .run d p
  have answer := writeOrder_answerSlot u n .run d p
  have lines := writeOrder_lineState u n .run d p
  rw [drive, idle] at halts
  generalize (u.writeOrder n .run d p).raiseHalt .restart (some u.own) = t at *
  rw [calm_after t (.inr (.inl halts.state)), refineOrigin_known (by rw [halts.record]; nofun), evaluate_idle quiet]
  generalize u.writeOrder n .run d p = w at *
  refine haltsWith_congr halts (fun run => absurd (idle.symm.trans run) nofun) ?_ time.symm
    (congrArg Governor.lead governor.symm) (congrArg StrideMonitor.strideCount stride.symm) transmitter.symm (fun x => ?_)
    answer.symm (fun l => (lines l).symm)
  · rw [State.headerOrder, State.headerOrder, orders]
    rfl
  · rw [State.isPacer_congr loader, pace,
      show State.isPacer { u with orders := { u.orders with unset := false, number := n } } = u.isPacer from rfl]
    cases u.isPacer <;> rfl

/-- A RUN caught up in HALTED with the order unset: the drive stays, and RESTART is the record's cause or joins it. -/
theorem restart_joins {u : State} (timed : u.TimerInv) (halted : u.drive.state = .halted)
    (unset : u.orders.unset = true) (n d p) (h : Header) (b : StatusBody) :
    ((u.adopt true n .run d p).refineOrigin h b).evaluateCensus.drive = u.drive
    ∧ (((u.adopt true n .run d p).refineOrigin h b).evaluateCensus.halt.record.cause = some .restart
      ∨ ((u.adopt true n .run d p).refineOrigin h b).evaluateCensus.halt.record.later.restart = true) := by
  have drive := writeOrder_drive u n .run d p
  have orders := writeOrder_orders u n .run d p
  have notCounting : u.orders.counting = false := Bool.eq_false_of_not_eq_true fun counts => by
    have := timed.census (.inl counts); rw [halted] at this; cases this
  rw [adopt_restart unset, State.raiseHalt]
  generalize u.writeOrder n .run d p = w at *
  rw [if_pos (drive ▸ halted), calm_after _ (.inr (.inl (drive ▸ halted)))]
  obtain ⟨x, refined⟩ := refineOrigin_setHalt (w.setHalt { w.halt with record := w.halt.record.addLater .restart }) h b
  obtain ⟨-, cause, later⟩ := refine_keeps (w.setHalt { w.halt with record := w.halt.record.addLater .restart }) h b
  rw [refined] at cause later ⊢
  rw [evaluate_idle (show _ = false by rw [State.setHalt_orders, State.setHalt_orders, orders]; exact notCounting)]
  refine ⟨drive, ?_⟩
  rw [cause, later, State.setHalt_halt, HaltRecord.addLater]
  by_cases own : w.halt.record.cause = some .restart
  · rw [if_pos own]; exact .inl own
  · rw [if_neg own]; exact .inr rfl

/-- Settles O38: what is carried is caught up on or refused; the halt unit and the census follow. -/
theorem panelStatusCatchesUp : Obligations.PanelStatusCatchesUp := by
  intro s h b inv timedS accepts panel u action direction carries
  have ui : u.DriveInv := afterHearing_inv inv h _
  have timed : u.TimerInv := heard_timed timedS ((active_iff s).mp accepts.active).1 h _
  have delivered : exec (.statusFrame h b) s = .next (u.deliverStatus h b) :=
    congrArg Host.Outcome.next (receive_accepts accepts _ fun t => t.deliverStatus h b)
  obtain ⟨outer, tallies, lines⟩ := (State.Outlasts.loud.deliverStatus u h b).facts
  have own : u.own = s.own := congrArg Loader.own (heard_station inv accepts _).2
  clear_value u
  rw [deliver_panel panel] at delivered outer tallies lines
  have after (v : State) : v.SameOrders (v.refineOrigin h b).evaluateCensus :=
    State.SameOrders.quiet.trans (State.SameOrders.quiet.refine v h b) (State.SameOrders.quiet.evaluateCensus _)
  refine ⟨_, delivered, fun no => ?_, fun carried bad => ?_, fun carried isAction isDirection => ?_,
    fun carried run isDirection unset idle => ?_, fun carried run isDirection unset halted => ?_,
    fun carried known => ?_, outer, tallies, lines⟩
  · rw [catchUp_not_carried no]
    exact ⟨after u, rfl, refine_then_evaluate ui timed h b⟩
  · rw [catchUp_refuses carried bad]
    have orders := after u.refuseOrder
    exact ⟨orders.unset, orders.number, orders.action, orders.refused.trans (satInc_byte _)⟩
  · obtain ⟨a, d, code, turn, adopts⟩ := catchUp_adopts carried isAction isDirection
    obtain ⟨unset, number, acts, turned, paced, refused⟩ := adopt_fields u true h.order a d (min b.pace.toNat 100)
    rw [adopts]
    have orders := after (u.adopt true h.order a d (min b.pace.toNat 100))
    exact ⟨orders.unset.trans unset, orders.number.trans number,
      (congrArg Action.code (orders.action.trans acts)).trans (action_of_code code).1,
      (congrArg Direction.code (orders.direction.trans turned)).trans (direction_of_code turn).1,
      orders.pace.trans paced, orders.refused.trans refused⟩
  · obtain ⟨a, d, code, -, adopts⟩ := catchUp_adopts carried (by rw [show b.actionDirection >>> 4 = 1 from run]; decide)
      isDirection
    obtain rfl : a = .run := Option.some.inj (code.symm.trans (action_run.mpr run))
    rw [adopts, ← own]
    exact restart_halts ui timed idle unset _ _ _ h b
  · obtain ⟨a, d, code, -, adopts⟩ := catchUp_adopts carried (by rw [show b.actionDirection >>> 4 = 1 from run]; decide)
      isDirection
    obtain rfl : a = .run := Option.some.inj (code.symm.trans (action_run.mpr run))
    rw [adopts]
    exact restart_joins timed halted unset _ _ _ h b
  · rw [catchUp_takes carried known]

end Sys2Proof.Machine
end

section
/-! Proofs of the statements on claims and holds (O43, O41): a claim report, and HOLD and FREE frames at the Hold Table. -/

open Sys2Proof Sys2Proof.Machine Host

namespace Sys2Proof.Machine

/-! ### The claim slot -/

theorem SpanLine.holdOnLine_iff (x : SpanLine) :
    x.holdOnLine = true ↔ ∃ f, x.transmitter = .sending f ∧ f.kind = .claim .hold := by
  rw [SpanLine.holdOnLine]
  cases x.transmitter <;> simp

theorem ReasonSet.isEmpty_iff (r : ReasonSet) :
    r.isEmpty = true ↔ r.lag = false ∧ r.stall = false ∧ r.sensor = false := by
  rw [ReasonSet.isEmpty]
  simp [and_assoc]

/-- What a claim that changes puts in the claim slot (R85). -/
theorem claimFrameFor_claim {s : State} {r : ReasonSet} (claims : r.isEmpty = false) :
    s.claimFrameFor r = some .hold := by
  rw [State.claimFrameFor, claims]
  rfl

theorem claimFrameFor_empty {s : State} {r : ReasonSet} (empty : r.isEmpty = true) : s.claimFrameFor r =
    if s.claim.announced = true ∨ s.line.holdOnLine = true then some .free else none := by
  rw [State.claimFrameFor, empty]
  simp only [Bool.not_true, Bool.false_eq_true, if_false, Bool.or_eq_true]

/-- Settles O43: the report's two cases, and the slot by the claim and what has been sent of it. -/
theorem claimSlotFollowsClaim : Obligations.ClaimSlotFollowsClaim := by
  intro s reason present reasons empty onLine
  have isEmpty : empty ↔ reasons.isEmpty = true := reasons.isEmpty_iff.symm
  have sent : onLine ↔ s.line.holdOnLine = true := s.line.holdOnLine_iff.symm
  refine ⟨fun same => if_pos same, fun changed => ⟨s.claimFrameFor reasons, (if_neg changed).trans ?_, fun claims => ?_,
    fun none told => ?_, fun none untold unsent => ?_⟩⟩
  · have reach : s.reachOf reasons = max (if reasons.lag = true then 1 else 0)
        (if reasons.stall = true ∨ reasons.sensor = true then s.towers - s.own.toNat else 0) := by
      simp only [State.reachOf, Bool.or_eq_true]
    rw [← reach]
    rfl
  · exact claimFrameFor_claim (Bool.eq_false_of_not_eq_true (mt isEmpty.mpr claims))
  · exact (claimFrameFor_empty (isEmpty.mp none)).trans (if_pos (told.imp id sent.mp))
  · refine (claimFrameFor_empty (isEmpty.mp none)).trans (if_neg (not_or.mpr ⟨?_, mt sent.mpr unsent⟩))
    rw [untold]
    decide

/-! ### The Hold Table -/

/-- A claim that covers the station writes its source's record. -/
theorem applyClaim_covers {u : State} {p : Position} {reasons reach : Byte}
    (covering : (reasons.getLsbD 0 = true ∨ reasons.getLsbD 1 = true ∨ reasons.getLsbD 2 = true)
      ∧ p.toNat < u.own.toNat ∧ u.own.toNat ≤ p.toNat + reach.toNat) : u.applyClaim p reasons reach =
        u.writeHold p { reasons := ReasonSet.ofByte reasons, reach := reach, order := u.orders.number
                        placed := u.localTime } :=
  if_pos ((covering_iff reasons p u.own reach).mpr covering)

/-- One that does not removes it. -/
theorem applyClaim_clears {u : State} {p : Position} {reasons reach : Byte}
    (clear : ¬((reasons.getLsbD 0 = true ∨ reasons.getLsbD 1 = true ∨ reasons.getLsbD 2 = true)
      ∧ p.toNat < u.own.toNat ∧ u.own.toNat ≤ p.toNat + reach.toNat)) : u.applyClaim p reasons reach = u.removeHold p :=
  if_neg (mt (covering_iff reasons p u.own reach).mp clear)

/-- A record removed from the set, as the statements on HOLD, FREE and STATUS frames list it. -/
structure State.HoldRemoved (u t : State) (p : Position) : Prop where
  record    : t.holds.recordOf p = none
  unapplied : t.holds.unappliedHold = u.holds.unappliedHold
  unmatched : t.holds.unmatchedFree = u.holds.unmatchedFree
  others    : u.misaligned = false → (∀ q, q ≠ p → t.holds.recordOf q = u.holds.recordOf q)
    ∧ t.drive.state = if u.drive.state = .held ∧ ∀ q, q ≠ p → u.holds.recordOf q = none then
        (if u.runRequest = true ∧ u.drive.rest = .rested then .run else .wait) else u.drive.state

theorem removeHold_removed {u : State} (d : u.DriveInv) (p : Position) : u.HoldRemoved (u.removeHold p) p := by
  obtain ⟨record, unapplied, unmatched⟩ := removeHold_any (u := u) p
  refine ⟨record, unapplied, unmatched, fun calm => ?_⟩
  obtain ⟨holds, state⟩ := removeHold_facts d calm p
  exact ⟨fun q ne => by rw [holds, HoldTable.recordOf_put, if_neg ne], state⟩

/-- A HOLD leaves alone what every decision does. -/
theorem deliverHold_undisturbed (u : State) (h : Header) (reasons reach : Byte) :
    u.Undisturbed (u.deliverHold h reasons reach) := by
  rw [State.deliverHold]
  split_ifs
  · exact State.Undisturbed.loose.applyClaim u _ _ _
  · exact State.Undisturbed.loose.holds u _
  · exact State.Undisturbed.quiet.refl u
  · exact State.Undisturbed.quiet.refl u

theorem deliverFree_undisturbed (u : State) (h : Header) : u.Undisturbed (u.deliverFree h) := by
  rw [State.deliverFree]
  split
  · split
    · exact State.Undisturbed.loose.removeHold u _
    · exact State.Undisturbed.loose.holds u _
  · exact State.Undisturbed.quiet.refl u

/-- Settles O41: the five cases of a HOLD and the three of a FREE. -/
theorem holdAndFreeFrames : Obligations.HoldAndFreeFrames := by
  intro s h reasons reach inv u matched covering underway removes
  have ui : u.DriveInv := afterHearing_inv inv h id
  have matching : u.claimMatches h.source (some h.order) = true ↔ matched := matches_iff u h
  refine ⟨fun accepts => ?hold, fun accepts => ?free⟩
  case hold =>
    have delivered : exec (.holdFrame h reasons reach) s = .next (u.deliverHold h reasons reach) :=
      congrArg Host.Outcome.next (receive_accepts accepts id fun t => t.deliverHold h reasons reach)
    clear_value u
    have takes (yes : matched) : u.deliverHold h reasons reach = if u.drive.state.isUnderway = true then
        u.applyClaim h.source reasons reach
      else if covering then u.setHolds { u.holds with unappliedHold := satInc u.holds.unappliedHold } else u :=
      (if_pos (matching.mpr yes)).trans
        (if_congr Iff.rfl rfl (if_congr (covering_iff reasons h.source u.own reach) rfl rfl))
    refine ⟨_, delivered, fun no => if_neg (mt matching.mp no), fun yes moves covers calm => ?_,
      fun yes moves clear => ?_, fun yes rests covers => ?_, fun yes rests clear => ?_,
      (deliverHold_undisturbed u h reasons reach).facts⟩
    · obtain ⟨holds, state⟩ := writeHold_facts ui calm h.source { reasons := ReasonSet.ofByte reasons, reach := reach
                                                                  order := u.orders.number, placed := u.localTime }
      rw [takes yes, if_pos moves, applyClaim_covers covers, holds, order_number yes.2.2]
      refine ⟨(HoldTable.recordOf_put _ _ _ _).trans (if_pos rfl),
        fun p ne => (HoldTable.recordOf_put _ _ _ _).trans (if_neg ne), ?_⟩
      rw [← order_number yes.2.2]
      exact state
    · rw [takes yes, if_pos moves, applyClaim_clears clear]
      obtain ⟨record, unapplied, unmatched, others⟩ := removeHold_removed ui h.source
      exact ⟨⟨record, unapplied, others⟩, unmatched⟩
    · rw [takes yes, if_neg rests, if_pos covers, satInc_byte]
      rfl
    · rw [takes yes, if_neg rests, if_neg clear]
  case free =>
    have delivered : exec (.freeFrame h) s = .next (u.deliverFree h) :=
      congrArg Host.Outcome.next (receive_accepts accepts id fun t => t.deliverFree h)
    clear_value u
    have facts := (deliverFree_undisturbed u h).facts
    refine ⟨_, delivered, fun no => if_neg (mt (And.imp_left matching.mp) no), fun yes moves unmatched => ?_,
      fun yes moves found => ?_, facts⟩
    · rw [State.deliverFree, if_pos ⟨matching.mpr yes, moves⟩, unmatched, satInc_byte]
      rfl
    · obtain ⟨r, record⟩ := Option.ne_none_iff_exists'.mp found
      rw [State.deliverFree, if_pos ⟨matching.mpr yes, moves⟩, record]
      obtain ⟨record, unapplied, unmatched, others⟩ := removeHold_removed ui h.source
      exact ⟨⟨record, unapplied, others⟩, unmatched⟩

end Sys2Proof.Machine
end

section
/-! Proofs of the statements on halt causes, characters and detected seizes (O44, O46, O49). -/

open Sys2Proof Sys2Proof.Machine Host

namespace Sys2Proof.Machine

/-! ### A cause at the Halt Unit -/

/-- The later causes a cause taken in HALTED adds (R141, Table 9-2). -/
def addedCauses (r : HaltRecord) (cause : HaltCause) : LaterCauses :=
  match cause with
  | .creep => { r.later with creep := true }
  | .peerLost => { r.later with peerLost := true }
  | .panelLost => { r.later with panelLost := true }
  | .loopOpen => if r.cause = some .seized then { r.later with loopOpen := true } else r.later
  | .seized => { r.later with seized := true }
  | .restart => { r.later with restart := true }
  | _ => r.later

theorem HaltRecord.addLater_added (r : HaltRecord) (cause : HaltCause) :
    r.addLater cause = if r.cause = some cause then r else { r with later := addedCauses r cause } := by
  unfold HaltRecord.addLater
  split
  · rfl
  · cases cause with
    | loopOpen => rw [addedCauses]; dsimp only; split <;> rfl
    | _ => rfl

/-- Table 9-2 as the statement writes it: the drive states in which a cause latches. -/
def LatchingState (d : DriveState) : HaltCause → Prop
  | .misalign => d.isFollowing = true
  | .sensor => d.isFollowing = true
  | .stall => d = .run
  | .creep => d = .idle ∨ d.isUnderway = true
  | .peerLost => d.isUnderway = true
  | .panelLost => d.isUnderway = true
  | .loopOpen => d.isUnderway = true
  | .seized => d.isUnderway = true
  | .musterTimeout => d = .muster
  | .restart => d = .idle

theorem HaltCause.latchesIn_iff (c : HaltCause) (d : DriveState) : c.latchesIn d = true ↔ LatchingState d c := by
  cases c <;> simp [HaltCause.latchesIn, LatchingState]

/-- Settles O44: the three cases of a cause. -/
theorem haltCausesAct : Obligations.HaltCausesAct := by
  intro s cause origin latches later added
  have latching : cause.latchesIn s.drive.state = true ↔ latches :=
    (cause.latchesIn_iff _).trans (by cases cause <;> exact Iff.rfl)
  have adds : addedCauses s.halt.record cause = added := by cases cause <;> rfl
  refine ⟨fun yes output => haltsWith_raise s cause origin output (latching.mpr yes), fun halted => ?_, fun other no =>
    raise_nothing other (Bool.eq_false_of_not_eq_true (mt latching.mp no))⟩
  rw [State.raiseHalt, if_pos halted, HaltRecord.addLater_added, adds]
  rfl

/-! ### A character -/

theorem noteNoise_eq (k : LineCounters) (c : CharacterSamples) : k.noteNoise c =
    if c.seventh = c.eighth ∧ c.eighth = c.ninth then k
    else { k with noisy := if k.noisy = 65535 then 65535 else k.noisy + 1 } := by
  rw [LineCounters.noteNoise, isNoisy, satInc_word]
  simp only [decide_eq_true_eq, ite_not]

/-- The cases of a character at a receiver (R148, R149), by the votes of its start and stop bits. -/
theorem takeCharacter_none {y : LineState} {c : CharacterSamples} {own : Bool}
    (none : ¬((voted c).getLsbD 0 = false ∧ y.receiver ≠ .discarding)) :
    y.takeCharacter c own = { y with idleTime := 0 } := by
  refine if_pos ?_
  rw [startsCharacter]
  by_cases start : (voted c).getLsbD 0 = false
  · exact .inr (not_not.mp fun other => none ⟨start, other⟩)
  · exact .inl (by simp [start])

theorem takeCharacter_taken {y : LineState} {c : CharacterSamples} {own : Bool}
    (taken : (voted c).getLsbD 0 = false ∧ y.receiver ≠ .discarding) : y.takeCharacter c own =
      if (voted c).getLsbD 9 = false then
        { y with receiver := .discarding, characters := [], ownFrame := false, idleTime := 0,
                 counters := { y.counters.noteNoise c with framing := satInc (y.counters.noteNoise c).framing } }
      else if y.characters.length = 24 then
        { y with receiver := .discarding, characters := [], ownFrame := false, idleTime := 0,
                 counters := { y.counters.noteNoise c with format := satInc (y.counters.noteNoise c).format } }
      else
        { y with receiver := .collecting, characters := y.characters ++ [characterValue c],
                 ownFrame := y.ownFrame || own, idleTime := 0, dominantRun := 0, counters := y.counters.noteNoise c } := by
  obtain ⟨start, listens⟩ := taken
  rw [LineState.takeCharacter, if_neg (not_or.mpr ⟨by rw [startsCharacter, start]; decide, listens⟩), stopIsDominant]
  exact if_congr (by simp) rfl rfl

/-- Settles O46: the character's cases, its bits read from the votes. -/
theorem characterIsTaken : Obligations.CharacterIsTaken := by
  intro s line c y bit noted takes
  have vote (k : Nat) : (voted c).getLsbD k = bit k := voted_bit c k
  have noise : y.counters.noteNoise c = noted := noteNoise_eq _ _
  refine ⟨fun deaf => if_neg (by rw [deaf]; decide), fun collects =>
    ⟨y.takeCharacter c (s.line.readsBack line), if_pos collects, fun no => takeCharacter_none ?_, fun yes low => ?_,
      fun yes high full => ?_, fun yes high more => ⟨characterValue c, fun k => ?_, ?_⟩⟩⟩
  · rwa [vote]
  · rw [takeCharacter_taken (by rwa [vote]), if_pos ((vote 9).trans low), noise, satInc_word]
  · rw [takeCharacter_taken (by rwa [vote]), if_neg (by rw [vote, high]; decide), if_pos full, noise, satInc_word]
  · rw [← vote, characterValue, BitVec.getLsbD_extractLsb', Nat.add_comm]
    simp
  · rw [takeCharacter_taken (by rwa [vote]), if_neg (by rw [vote, high]; decide), if_neg more, noise]

/-! ### A detected seize -/

/-- Settles O49: the seize counted at its line, then the cause SEIZED at the Halt Unit. -/
theorem seizeIsDetected : Obligations.SeizeIsDetected := by
  intro s line d y z u
  have counted : s.modifyLine line LineState.takeSeize = u := by
    have : y.takeSeize = z := by
      rw [LineState.takeSeize, LineState.discardCollection, satInc_word]
      by_cases collects : y.receiver = .collecting
      · simp only [z, if_pos collects]
      · simp only [z, if_neg collects]
    exact congrArg (fun x => s.setLine (s.line.setLineState line x)) this
  refine ⟨fun no => if_neg fun k => ?_, fun collects armed => ?_⟩
  · obtain ⟨collects, armed⟩ := k
    rcases no with deaf | spent
    · exact absurd (deaf.symm.trans collects) (by decide)
    · exact absurd (spent.symm.trans armed) (by decide)
  · have taken : exec (.seizeDetected line) s = .next (if s.active = true then u.raiseHalt .seized none else u) := by
      refine (if_pos ⟨collects, armed⟩).trans ?_
      rw [counted]
      change (if s.active = true then _ else _) = _
      split <;> rfl
    refine ⟨_, taken, fun idle => ?_, fun active underway => ?_, fun active halted => ?_, ?_⟩
    · rcases idle with asleep | idle
      · rw [asleep]
        rfl
      · have here : u.drive.state = .idle := idle
        rw [raise_nothing (by rw [here]; decide) (by rw [here]; rfl), ite_self]
    · rw [if_pos active]
      exact haltsWith_raise u .seized none d.contactor.1 underway
    · rw [if_pos active, State.raiseHalt, if_pos (show u.drive.state = .halted from halted), HaltRecord.addLater_added]
      rfl
    · split
      · exact raise_line u .seized none
      · exact ⟨fun _ => rfl, fun _ => rfl, fun _ => rfl⟩

end Sys2Proof.Machine
end

section
/-! Proof of the statement on the end of a collection (O47). -/

open Sys2Proof Sys2Proof.Machine Host

namespace Sys2Proof.Machine

theorem highByte_append (high low : Byte) : highByte (high ++ low) = high := BitVec.extractLsb'_append_eq_left

theorem lowByte_append (high low : Byte) : lowByte (high ++ low) = low := BitVec.extractLsb'_append_eq_right

theorem highByte_append_lowByte (x : BitVec 16) : highByte x ++ lowByte x = x := by
  rw [highByte, lowByte, BitVec.extractLsb'_append_extractLsb'_eq_extractLsb' (by rfl)]
  exact BitVec.extractLsb'_eq_self

theorem bytes16_eq_iff (x : BitVec 16) (high low : Byte) : [high, low] = bytes16 x ↔ x = high ++ low := by
  constructor
  · intro same
    obtain ⟨rfl, rfl⟩ : high = highByte x ∧ low = lowByte x := by simpa [bytes16] using same
    exact (highByte_append_lowByte x).symm
  · rintro rfl
    rw [bytes16, highByte_append, lowByte_append]

/-- The checks of Table 10-2 in their order on a frame that ends with a CRC. -/
theorem checkFrame_parts (lead : Byte) (inner : List Byte) (high low : Byte) :
    checkFrame (lead :: inner ++ [high, low]) =
      if lead ≠ 0xB4 then some .framing
      else if inner.length < 3 then some .format
      else if crcOf inner ≠ high ++ low then some .crcBad
      else match bodyLength ((inner.getD 0 0).toNat / 32) with
        | none => some .format
        | some body => if inner.length = body + 3 then none else some .format := by
  have length : (lead :: inner ++ [high, low]).length = inner.length + 3 := by simp
  have last : (lead :: inner ++ [high, low]).drop (inner.length + 3 - 2) = [high, low] := by simp
  have body : ((lead :: inner ++ [high, low]).drop 1).take (inner.length + 3 - 3) = inner := by simp
  rw [checkFrame, length]
  dsimp only
  rw [body, last]
  refine if_congr (by simp) rfl (if_congr (by omega) rfl (if_congr (not_congr (bytes16_eq_iff _ _ _)) rfl ?_))
  cases bodyLength ((inner.getD 0 0).toNat / 32) with
  | none => rfl
  | some n => exact if_congr (by omega) rfl rfl

/-! ### A good frame in collection -/

theorem kind_toNat (b : Byte) : (b.extractLsb' 5 3).toNat = b.toNat / 32 := by
  rw [BitVec.extractLsb'_toNat, Nat.shiftRight_eq_div_pow]
  omega

theorem headerOf_eq (line : Line) (l : List Byte) : headerOf line l =
    { line := line, source := (l.getD 1 0).extractLsb' 0 5, seq := l.getD 2 0, order := l.getD 3 0 } := by
  rw [headerOf, ← BitVec.setWidth_eq_extractLsb' (by decide)]

/-- What a frame with these characters is taken as, by its kind code (Table 11-2). -/
def State.takenAs (s : State) (h : Header) (l : List Byte) : Nat → State
  | 0 => s.receiveStatus h (statusBodyOf l)
  | 1 => s.receiveOrder h (l.getD 4 0) (l.getD 5 0) (l.getD 6 0)
  | 2 => s.receiveHold h (l.getD 4 0) (l.getD 5 0)
  | 3 => s.receiveFree h
  | 4 => s.receiveAsk h (l.getD 4 0) (l.getD 5 0) (l.getD 6 0)
  | _ => s.receiveAnswer h

theorem takeCollected_takenAs (s : State) (line : Line) (l : List Byte) :
    s.takeCollected line l = s.takenAs (headerOf line l) l ((l.getD 1 0).toNat / 32) := rfl

section
variable {s : State} {line : Line} (collects : s.collecting = true)
  (busy : (s.line.lineState line).receiver = .collecting) (other : (s.line.lineState line).ownFrame = false)
include collects busy other

/-- RECEIVER_IDLE on a frame of another station in collection: the checks decide. -/
theorem receiverIdle_failed {f : FrameFailure} (failed : checkFrame (s.line.lineState line).characters = some f) :
    exec (.receiverIdle line) s = .next (s.dropFailed line f) := by
  refine (if_neg (by rw [collects]; decide)).trans ((if_pos ⟨busy, other⟩).trans ?_)
  rw [failed]

theorem receiverIdle_good (good : checkFrame (s.line.lineState line).characters = none) :
    exec (.receiverIdle line) s = .next (s.takeCollected line (s.line.lineState line).characters) := by
  refine (if_neg (by rw [collects]; decide)).trans ((if_pos ⟨busy, other⟩).trans ?_)
  rw [good]

/-- FRAME_CHECK_FAILED on such a frame. -/
theorem frameCheckFailed_failed {f : FrameFailure} (failed : checkFrame (s.line.lineState line).characters = some f) :
    exec (.frameCheckFailed line) s = .next (s.dropFailed line f) := by
  refine (if_pos ⟨collects, busy⟩).trans ((if_neg (by rw [other]; decide)).trans ?_)
  rw [failed]

theorem frameCheckFailed_good (good : checkFrame (s.line.lineState line).characters = none) :
    exec (.frameCheckFailed line) s = .next s := by
  refine (if_pos ⟨collects, busy⟩).trans ((if_neg (by rw [other]; decide)).trans ?_)
  rw [good]

end

theorem hearFrame_eq (x : SpanLine) (l : Line) :
    x.hearFrame l = { x with yieldBias := if l = x.sendLine then false else x.yieldBias } := by
  rw [SpanLine.hearFrame]
  split <;> rfl

theorem dropFailed_eq (s : State) (line : Line) (f : FrameFailure) : s.dropFailed line f =
    { s with line := { s.line.setLineState line { (s.line.lineState line).endFrame with
        counters := (s.line.lineState line).counters.noteFailure f } with
      yieldBias := if line = s.line.sendLine then false else s.line.yieldBias } } := by
  cases line <;> exact congrArg s.setLine (hearFrame_eq _ _)

/-- Settles O47: the checks in their order; at the end of a collection a frame that fails is dropped, the station's own
ends uncounted, and a good one is taken as its command. -/
theorem frameChecksDecide : Obligations.FrameChecksDecide := by
  refine ⟨fun lead second => ?short, fun lead inner high low => ?checks, fun s line collects => ?receiver⟩
  case short =>
    constructor
    · rw [checkFrame_short (show [lead].length < 6 by simp)]
      simp
    · rw [checkFrame_short (show [lead, second].length < 6 by simp)]
      simp
  case checks =>
    have code : (inner.getD 0 0).toNat / 32 < 8 := by omega
    have parts := checkFrame_parts lead inner high low
    rw [body_opt _ code] at parts
    exact parts
  case receiver =>
    intro y ended byte h kind body taken
    have header : headerOf line y.characters = h := headerOf_eq line y.characters
    refine ⟨fun quiet => ?_, fun f busy other failed => ?_, fun busy other good => ?_, fun quiet => ?_,
      fun busy own => ?_, fun busy other good => ?_, fun f busy other failed => ?_⟩
    · have ends : ¬((s.line.lineState line).receiver = .collecting ∧ (s.line.lineState line).ownFrame = false) :=
        fun k => quiet.elim (absurd k.1) fun own => absurd (own.symm.trans k.2) (by decide)
      exact (if_neg (by rw [collects]; decide)).trans (if_neg ends)
    · exact (receiverIdle_failed collects busy other failed).trans
        (frameCheckFailed_failed collects busy other failed).symm
    · have takes {i : Instr} {t : State} (does : exec i s = .next t) (same : s.takeCollected line y.characters = t) :
          taken i :=
        (receiverIdle_good collects busy other good).trans ((congrArg _ same).trans does.symm)
      have as (k : BitVec 3) (code : kind = k) : s.takeCollected line y.characters = s.takenAs h y.characters k.toNat := by
        rw [takeCollected_takenAs, header, ← code, kind_toNat]
      refine ⟨fun zero => takes rfl (as 0 zero), fun one => ?_, fun two => takes rfl (as 2 two),
        fun three => takes rfl (as 3 three), fun four i ask => takes (exec_ask ask s) (as 4 four),
        fun five data => takes rfl (as 5 five)⟩
      have order := as 1 one
      refine ⟨fun stop => takes rfl ?_, fun run => takes rfl ?_, fun clear => takes rfl ?_, takes rfl order⟩
      · exact order.trans (congrArg (fun a => s.receiveOrder h a _ _) stop)
      · exact order.trans (congrArg (fun a => s.receiveOrder h a _ _) run)
      · exact order.trans (congrArg (fun a => s.receiveOrder h a _ _) clear)
    · exact if_neg fun k => quiet k.2
    · exact (if_pos ⟨collects, busy⟩).trans (if_pos own)
    · exact frameCheckFailed_good collects busy other good
    · rw [frameCheckFailed_failed collects busy other failed, dropFailed_eq]
      cases f <;> rfl

end Sys2Proof.Machine
end

section
/-! Proofs of the statements on transmissions (O50, O51, O52): their start, their completion, and a clash. -/

open Sys2Proof Sys2Proof.Machine Host

namespace Sys2Proof.Machine

/-! ### The start -/

/-- The access of the frame at the head of the queue. -/
theorem exec_transmissionStart {s : State} {k : FrameKind} (head : s.line.head = some k) (times : GapTimes) :
    exec (.transmissionStart times) s =
      if s.active = true ∧ s.line.transmitter = .released ∧ s.accessGap k ≤ s.line.gapTime times then
        .next (s.setLine (s.line.startSending (s.buildFrame k)))
      else .next s := by
  rw [show exec (.transmissionStart times) s = execTransmissionStart times s from rfl, execTransmissionStart, head]

/-- What a frame's start leaves in the three slots: its own is empty (R158). -/
def SpanLine.SlotsAfter (x y : SpanLine) (k : FrameKind) : Prop :=
  match k with
  | .claim _ => y.claimSlot = none ∧ y.answerSlot = x.answerSlot ∧ y.statusSlot = x.statusSlot
  | .answer _ => y.claimSlot = x.claimSlot ∧ y.answerSlot = none ∧ y.statusSlot = x.statusSlot
  | .status => y.claimSlot = x.claimSlot ∧ y.answerSlot = x.answerSlot ∧ y.statusSlot = false

/-- What the start of a frame changes at the interface. -/
structure SpanLine.Starts (x y : SpanLine) (f : SentFrame) : Prop where
  sends       : y.transmitter = .sending f
  gap         : y.gapFromClash = false
  slots       : x.SlotsAfter y f.kind
  lines       : x.SameLines y
  line        : y.sendLine = x.sendLine
  bias        : y.yieldBias = x.yieldBias
  consecutive : y.consecutiveClashes = x.consecutiveClashes
  report      : y.reportTimer = x.reportTimer

/-- A write to one line's receiver leaves the rest of the interface. -/
theorem setLineState_rest (x : SpanLine) (l : Line) (y : LineState) :
    ∃ a b, x.setLineState l y = { x with lineA := a, lineB := b } := by
  cases l
  exacts [⟨y, x.lineB, rfl⟩, ⟨x.lineA, y, rfl⟩]

/-- So does one that keeps the line's counters, its state and its quiet timer. -/
theorem SpanLine.SameLines.setLineState {x : SpanLine} {l : Line} {y : LineState} (same : (x.lineState l).Same y) :
    x.SameLines (x.setLineState l y) := by
  cases l
  exacts [⟨same, .refl _⟩, ⟨.refl _, same⟩]

/-- Taking a frame from its slot writes that slot only. -/
theorem takeFromSlot_slots (x : SpanLine) (k : FrameKind) : x.SlotsAfter (x.takeFromSlot k) k
    ∧ ∃ c a b, x.takeFromSlot k = { x with claimSlot := c, answerSlot := a, statusSlot := b } := by
  cases k with
  | claim c => exact ⟨⟨rfl, rfl, rfl⟩, _, _, _, rfl⟩
  | answer a => exact ⟨⟨rfl, rfl, rfl⟩, _, _, _, rfl⟩
  | status => exact ⟨⟨rfl, rfl, rfl⟩, _, _, _, rfl⟩

theorem startSending_starts (x : SpanLine) (f : SentFrame) : x.Starts (x.startSending f) f := by
  obtain ⟨slots, c, a, b, taken⟩ := takeFromSlot_slots x f.kind
  rw [taken] at slots
  obtain ⟨z, begun⟩ : ∃ z : SpanLine, z = { x with claimSlot := c, answerSlot := a, statusSlot := b
                                                   transmitter := .sending f, gapFromClash := false } := ⟨_, rfl⟩
  have started : x.startSending f = z.setLineState z.sendLine { z.lineState z.sendLine with idleTime := 0 } := by
    rw [SpanLine.startSending, taken, begun]
  have lines : z.SameLines (x.startSending f) := started ▸ .setLineState ⟨rfl, rfl, rfl⟩
  obtain ⟨p, q, written⟩ := setLineState_rest z z.sendLine { z.lineState z.sendLine with idleTime := 0 }
  rw [started, written] at lines ⊢
  subst begun
  exact ⟨rfl, rfl, slots, ⟨lines.a, lines.b⟩, rfl, rfl, rfl, rfl⟩

/-- Settles O50: the head of the queue, built and sent when the gap has passed. -/
theorem transmissionStarts : Obligations.TransmissionStarts := by
  intro s times k time head gap code seq order inner
  have start (first : head) : exec (.transmissionStart times) s =
      if s.active = true ∧ s.line.transmitter = .released ∧ gap ≤ time then
        .next (s.setLine (s.line.startSending (s.buildFrame k)))
      else .next s := exec_transmissionStart (head_eq first) times
  refine ⟨fun first active released passed => ?_, fun first waits => (start first).trans (if_neg waits),
    fun claim answer status => ?_⟩
  · obtain ⟨sends, gap, slots, lines, line, bias, consecutive, report⟩ := startSending_starts s.line (s.buildFrame k)
    have built : s.buildFrame k = { kind := k, seq := seq, order := order
                                    characters := 0xB4 :: inner ++ bytes16 (crcOf inner) } := by
      rw [← assemble_eq s k code rfl inner rfl]
      rfl
    refine ⟨_, (start first).trans (if_pos ⟨active, released, passed⟩), sends.trans (congrArg _ built), rfl, gap, ?_, ?_,
      ?_, .of lines, line, bias, consecutive, report⟩
    · cases k
      exacts [slots.1, slots.1, slots.1]
    · cases k
      exacts [slots.2.1, slots.2.1, slots.2.1]
    · cases k
      exacts [slots.2.2, slots.2.2, slots.2.2]
  · rw [show exec (.transmissionStart times) s = execTransmissionStart times s from rfl, execTransmissionStart,
      SpanLine.head, claim, answer, status]

/-! ### The completion -/

/-- The slots by number, in the order of the queue. -/
def FrameKind.slot (k : FrameKind) : Fin 3 :=
  match k with
  | .claim _ => 0
  | .answer _ => 1
  | .status => 2

theorem clearClashes_eq (x : SpanLine) (k : FrameKind) : x.clearClashes k =
    { x with claimClashes := if k.slot = 0 then 0 else x.claimClashes
             answerClashes := if k.slot = 1 then 0 else x.answerClashes
             statusClashes := if k.slot = 2 then 0 else x.statusClashes } := by
  cases k <;> rfl

/-- The interface after a completion, field by field. -/
theorem complete_eq (x : SpanLine) (f : SentFrame) (period : Nat) : x.complete f period =
    { x with transmitter := .released, consecutiveClashes := 0, yieldBias := !x.changeWaiting, changeWaiting := false
             sendLine := if x.changeWaiting = true then otherLine x.sendLine else x.sendLine
             claimClashes := if x.changeWaiting = true ∨ f.kind.slot = 0 then 0 else x.claimClashes
             answerClashes := if x.changeWaiting = true ∨ f.kind.slot = 1 then 0 else x.answerClashes
             statusClashes := if x.changeWaiting = true ∨ f.kind.slot = 2 then 0 else x.statusClashes
             reportTimer := if f.kind = .status then some period else x.reportTimer } := by
  rw [SpanLine.complete, clearClashes_eq, SpanLine.release]
  by_cases waiting : x.changeWaiting = true <;> by_cases status : f.kind = .status <;>
    simp [waiting, status, SpanLine.changeSendLine]

/-- The announced mark after a completion (R86). -/
theorem announcedAfter_eq (s : State) (f : SentFrame) : s.announcedAfter f =
    if f.kind = .claim .hold ∧ s.orders.unset = false ∧ s.orders.number = f.order then true
    else if f.kind = .claim .free then false else s.claim.announced := by
  have inForce : s.orderInForce = some f.order ↔ s.orders.unset = false ∧ s.orders.number = f.order := by
    rw [State.orderInForce]
    cases s.orders.unset <;> simp
  rw [State.announcedAfter]
  cases kind : f.kind with
  | claim c => cases c <;> simp [inForce]
  | answer a => simp
  | status => simp

/-- Settles O51: the interface, the own record and the announced mark after a completion. -/
theorem transmissionCompletes : Obligations.TransmissionCompletes := by
  intro s f sending slot
  have number : f.kind.slot = slot := by
    obtain ⟨kind, -, -, -⟩ := f
    cases kind <;> rfl
  have completes : exec .transmissionComplete s =
      .next (((s.setLine (s.line.complete f s.config.reportPeriod)).setClaim
        { s.claim with announced := s.announcedAfter f }).recordOwnFrame f) := by
    rw [show exec .transmissionComplete s = execTransmissionComplete s from rfl, execTransmissionComplete, sending]
  rw [complete_eq, number] at completes
  refine ⟨_, completes, rfl, rfl, rfl, rfl, rfl, rfl, rfl, rfl, rfl, rfl, rfl, rfl, rfl, rfl, ?_, fun p other => ?_, rfl,
    announcedAfter_eq s f, rfl⟩
  · refine (Roster.recordOf_put _ _ _ _).trans ((if_pos rfl).trans ?_)
    rw [← satInc_word]
    rfl
  · exact (Roster.recordOf_put _ _ _ _).trans (if_neg other)

/-! ### A clash -/

/-- An interface that drives nothing and has no change waiting is silenced by its slots and its report timer alone. -/
theorem silence_released {y : SpanLine} (released : y.transmitter = .released) (settled : y.changeWaiting = false) :
    y.silence = { y with claimSlot := none, answerSlot := none, statusSlot := false, reportTimer := none } := by
  rw [SpanLine.silence, SpanLine.release, settled]
  simp [released]

/-- The interface after a clash, beside its slots and its report timer: the counts and the send line. -/
structure SpanLine.ClashCounted (x y : SpanLine) (k : FrameKind) (count : Nat) (alternate : Bool) : Prop where
  released    : y.transmitter = .released
  consecutive : y.consecutiveClashes = x.consecutiveClashes + 1
  gap         : y.gapFromClash = true
  here        : (y.lineState x.sendLine).counters = { (x.lineState x.sendLine).counters with
    clashes := satInc (x.lineState x.sendLine).counters.clashes }
  there       : y.lineState (otherLine x.sendLine) = x.lineState (otherLine x.sendLine)
  changed     : x.changeWaiting = true ∨ 3 ≤ count ∧ alternate = true → y.sendLine = otherLine x.sendLine
    ∧ y.yieldBias = false ∧ y.claimClashes = 0 ∧ y.answerClashes = 0 ∧ y.statusClashes = 0
  same        : ¬(x.changeWaiting = true ∨ 3 ≤ count ∧ alternate = true) → y.sendLine = x.sendLine
    ∧ y.yieldBias = x.yieldBias ∧ y.slotClashes k = if 3 ≤ count then 0 else count
  discarded   : y.answersDiscarded = clashedDiscards x k

theorem Clashed.counted {x y : SpanLine} {k : FrameKind} {count : Nat} {alternate : Bool}
    (clashed : Clashed x y k count alternate) (gap : y.gapFromClash = true) : x.ClashCounted y k count alternate :=
  ⟨clashed.released, clashed.consecutive, gap, clashed.here, clashed.there, clashed.changed, clashed.same, clashed.discarded⟩

/-- What has been counted does not read the slots or the report timer. -/
theorem SpanLine.ClashCounted.slots {x y : SpanLine} {k : FrameKind} {count : Nat} {alternate : Bool}
    (counted : x.ClashCounted y k count alternate) (c : Option ClaimFrame) (a : Option AnswerRequest) (status : Bool)
    (report : Option Nat) : x.ClashCounted
      { y with claimSlot := c, answerSlot := a, statusSlot := status, reportTimer := report } k count alternate := by
  obtain ⟨released, consecutive, gap, here, there, changed, same, discarded⟩ := counted
  have line (l : Line) : ({ y with claimSlot := c, answerSlot := a, statusSlot := status
                                   reportTimer := report } : SpanLine).lineState l = y.lineState l := by cases l <;> rfl
  have clashes : ({ y with claimSlot := c, answerSlot := a, statusSlot := status
                           reportTimer := report } : SpanLine).slotClashes k = y.slotClashes k := by cases k <;> rfl
  exact ⟨released, consecutive, gap, by rw [line]; exact here, by rw [line]; exact there, changed,
    by rw [clashes]; exact same, discarded⟩

/-- An ANSWER whose discard time has run out (R160). -/
def FrameKind.expired (k : FrameKind) : Bool :=
  match k with
  | .claim _ => false
  | .answer a => decide (a.discard = 0)
  | .status => false

theorem clashedDiscards_eq (x : SpanLine) (k : FrameKind) :
    clashedDiscards x k = if k.expired = true then satInc x.answersDiscarded else x.answersDiscarded := by
  unfold clashedDiscards
  cases k with
  | answer a => simp [FrameKind.expired]
  | claim c => rfl
  | status => rfl

/-- Settles O52: the interface after the clash, and at the eighth in a row the conflict on top of it. -/
theorem clashCountsAndReturns : Obligations.ClashCountsAndReturns := by
  intro s f d sending x taken clashesOf count changes expired
  have on : s.drive.state ≠ .offline := fun off => nomatch sending.symm.trans (d.silent off).1
  obtain ⟨y, made⟩ : ∃ y, y = ((((x.countClash f.kind).returnClashed f.kind).release).judgeSlotLimit f.kind
    (decide (s.config.alternateLine = 1))) := ⟨_, rfl⟩
  have clash : exec .clash s =
      .next (if 8 ≤ y.consecutiveClashes then (s.setLine y).positionConflict else s.setLine y) := by
    rw [show exec .clash s = execClash s from rfl, execClash, sending, made]
    rfl
  have counts : (if x.slotTaken f.kind = true then 0 else x.slotClashes f.kind + 1) = count := rfl
  have after := clashed x f.kind (decide (s.config.alternateLine = 1))
  rw [← made, counts] at after
  have changing : changes ↔ x.changeWaiting = true ∨ 3 ≤ count ∧ decide (s.config.alternateLine = 1) = true := by
    rw [decide_eq_true_iff]
  have discards : clashedDiscards x f.kind =
      if expired = true then satInc x.answersDiscarded else x.answersDiscarded :=
    clashedDiscards_eq x f.kind
  have counted : x.ClashCounted y f.kind count (decide (s.config.alternateLine = 1)) :=
    after.counted (by rw [made]; exact clashed_gap _ _ _)
  rw [after.consecutive] at clash
  obtain ⟨offline, loader, line, roster⟩ := conflict_facts (t := s.setLine y) on
  replace line := line.trans (silence_released (y := { y with
    claimSlot := none, statusSlot := y.statusSlot || !s.claim.reasons.isEmpty }) after.released after.waiting)
  obtain ⟨t, result⟩ : ∃ t, t = if 8 ≤ x.consecutiveClashes + 1 then (s.setLine y).positionConflict else s.setLine y :=
    ⟨_, rfl⟩
  rw [← result] at clash
  have settled : x.ClashCounted t.line f.kind count (decide (s.config.alternateLine = 1)) := by
    by_cases eighth : 8 ≤ x.consecutiveClashes + 1
    · rw [result, if_pos eighth, line]
      exact counted.slots _ _ _ _
    · rw [result, if_neg eighth]
      exact counted
  obtain ⟨released, consecutive, gap, here, there, changed, same, discarded⟩ := settled
  rw [← changing] at changed same
  refine ⟨t, clash, released, consecutive, gap, here, there, ?_, fun yes => (changed yes).2,
    fun no => ⟨(same no).2.1, (same no).2.2⟩, discarded.trans discards, fun few => ?_, fun many => ?_⟩
  · split
    · next yes => exact (changed yes).1
    · next no => exact (same no).1
  · rw [if_neg (Nat.not_le.mpr few)] at result
    subst result
    exact ⟨after.claim, after.answer, after.status, rfl⟩
  · rw [if_pos many] at result
    subst result
    rw [offline, loader, line, roster]
    exact ⟨rfl, rfl, rfl, rfl, rfl, rfl, rfl⟩

end Sys2Proof.Machine
end

section
/-! Proofs of the statements on built frames and the configuration's bytes (O56, O57). -/

open Sys2Proof Sys2Proof.Machine Host

namespace Sys2Proof.Machine

/-! ### Built frames -/

/-- The first byte of the header carries the kind code, and the kind code the length of the body (Tables 11-1, 11-2). -/
theorem bodyLength_code (s : State) (k : FrameKind) : bodyLength k.code = some (s.bodyOf k).length := by
  rw [body_len]
  cases k with
  | claim c => cases c <;> rfl
  | answer a => rfl
  | status => rfl

theorem body_length_le (s : State) (k : FrameKind) : (s.bodyOf k).length ≤ 12 := by
  rw [body_len]
  cases k with
  | claim c => cases c <;> decide
  | answer a => exact (by decide : 10 ≤ 12)
  | status => exact le_refl _

/-- Settles O56: a built frame passes each check of Table 10-2 in turn. -/
theorem builtFramesPassTheChecks : Obligations.BuiltFramesPassTheChecks := by
  refine ⟨by decide +kernel, fun s k => ?_⟩
  obtain ⟨inner, body⟩ : ∃ inner, inner = (BitVec.ofNat 3 k.code ++ s.own : Byte) :: s.nextSequence :: s.headerOrder ::
    s.bodyOf k := ⟨_, rfl⟩
  have built : (s.buildFrame k).characters = 0xB4 :: inner ++ [highByte (crcOf inner), lowByte (crcOf inner)] := by
    rw [body]
    rfl
  have length : inner.length = (s.bodyOf k).length + 3 := by rw [body]; rfl
  have code : (inner.getD 0 0).toNat / 32 = k.code := by rw [body]; exact kind_code k s.own
  have short := body_length_le s k
  rw [built, checkFrame_parts, if_neg (not_not.mpr rfl), if_neg (by omega), highByte_append_lowByte,
    if_neg (not_not.mpr rfl), code, bodyLength_code s k]
  refine ⟨if_pos length, ?_⟩
  simp only [List.length_append, List.length_cons, List.length_nil]
  omega

/-! ### The configuration's bytes -/

theorem bytes16_append (high low : Byte) : bytes16 (high ++ low) = [high, low] :=
  ((bytes16_eq_iff _ _ _).mpr rfl).symm

/-- An image of 32 bytes is its first 30 and its CRC field. -/
theorem image_split {image : List Byte} (full : image.length = 32) :
    image.take 30 ++ [image.getD 30 0, image.getD 31 0] = image := by
  obtain ⟨a, b, last⟩ := List.length_eq_two.mp (show (image.drop 30).length = 2 by rw [List.length_drop, full])
  have at_ (i : Nat) : image.getD (30 + i) 0 = (image.drop 30).getD i 0 := by
    rw [List.getD_eq_getElem?_getD, List.getD_eq_getElem?_getD, List.getElem?_drop]
  rw [at_ 0, at_ 1, last]
  exact last ▸ List.take_append_drop 30 image

/-- Settles O57: the bytes of a record read back, and the record of an image written out. -/
theorem configRecordAndBytesAgree : Obligations.ConfigRecordAndBytesAgree := by
  refine ⟨fun c crc => ⟨?_, highByte_append_lowByte crc⟩, fun image full => ?_⟩
  · have read : ConfigRecord.ofBytes (c.toBytes ++ bytes16 crc) = { c with
        startLevelD := highByte c.startLevelD ++ lowByte c.startLevelD
        holdLevelD := highByte c.holdLevelD ++ lowByte c.holdLevelD
        haltLevelD := highByte c.haltLevelD ++ lowByte c.haltLevelD } := rfl
    rw [read, highByte_append_lowByte, highByte_append_lowByte, highByte_append_lowByte]
  · rw [toBytes_take image full, crcFieldOf, bytes16_append, image_split full]

end Sys2Proof.Machine
end

section
/-! Proof of the statement on what frames and answers carry (O55). -/

open Sys2Proof Sys2Proof.Machine Host

namespace Sys2Proof.Machine

/-! ### The fields of frames and answers -/

theorem satOfNat_min (w n : Nat) : satOfNat w n = BitVec.ofNat w (min n (2 ^ w - 1)) := by
  rw [satOfNat]
  split
  · next fits => rw [Nat.min_eq_left (by omega)]
  · next big =>
    rw [Nat.min_eq_right (by omega)]
    refine BitVec.eq_of_toNat_eq ?_
    rw [BitVec.toNat_allOnes, BitVec.toNat_ofNat, Nat.mod_eq_of_lt (Nat.sub_lt (Nat.two_pow_pos w) Nat.one_pos)]

theorem originField_eq (p : Option Position) : originField p = match p with
    | none => 0xFF
    | some x => BitVec.ofNat 8 x.toNat := by
  cases p with
  | none => rfl
  | some x => exact (BitVec.ofNat_toNat 8 x).symm

/-- An expected position's place in the roster is its number. -/
theorem countPresence_eq (s : State) (x : Presence) :
    s.countPresence x = ((List.range 32).filter (fun n => decide (n ≤ s.towers
      ∧ n ≠ s.own.toNat ∧ (s.roster.recordOf (BitVec.ofNat 5 n)).presence = x))).length := by
  rw [State.countPresence, allPositions, List.filter_map, List.length_map]
  congr 1
  refine List.filter_congr fun n listed => ?_
  have number : (BitVec.ofNat 5 n).toNat = n := by
    rw [BitVec.toNat_ofNat, Nat.mod_eq_of_lt (List.mem_range.mp listed)]
  have own : BitVec.ofNat 5 n = s.own ↔ n = s.own.toNat := by
    rw [← BitVec.toNat_inj, number]
  simp only [Function.comp, number, ne_eq, own, Bool.decide_and, Bool.and_assoc]

/-! ### Answers by item -/

theorem position_argument (p : Position) : (p.setWidth 8 : Byte).toNat = p.toNat ∧ (p.setWidth 8 : Byte).setWidth 5 = p := by
  have small := p.isLt
  have number : (p.setWidth 8 : Byte).toNat = p.toNat := by
    rw [BitVec.toNat_setWidth, Nat.mod_eq_of_lt (by omega)]
  refine ⟨number, BitVec.eq_of_toNat_eq ?_⟩
  rw [BitVec.toNat_setWidth, number, Nat.mod_eq_of_lt small]

theorem answerData_rosterRecord (s : State) (p : Position) :
    s.answerData 2 (p.setWidth 8) = (s.rosterRecord p).viewBytes := by
  obtain ⟨number, back⟩ := position_argument p
  have small := p.isLt
  have inRange : askInRange 2 (p.setWidth 8) = true := decide_eq_true (by rw [number]; omega)
  have single : (p.setWidth 8 : Byte) ≠ 32 := fun totals => by
    rw [totals] at number
    exact absurd number (by simp; omega)
  exact (if_pos inRange).trans ((if_neg single).trans (by rw [back]))

theorem answerData_holdView (s : State) (p : Position) : s.answerData 6 (p.setWidth 8) = s.holdBytes p := by
  obtain ⟨number, back⟩ := position_argument p
  have small := p.isLt
  have inRange : askInRange 6 (p.setWidth 8) = true := decide_eq_true (by rw [number]; omega)
  exact (if_pos inRange).trans (congrArg s.holdBytes back)

theorem viewBytes_eq (r : RosterRecord) : r.viewBytes =
    [r.presence.code, BitVec.ofNat 8 (min (r.age.toNat / 10) 255), r.lastSeq.getD 0, r.missed,
     match r.reported with
      | none => 0xFF
      | some y => y.state,
     match r.reported with
      | none => 0xFF
      | some y => y.order.getD 0xFF,
     highByte r.accepted, lowByte r.accepted] := by
  rw [RosterRecord.viewBytes, satOfNat_min]
  cases r.reported <;> rfl

theorem rosterRecord_own (s : State) :
    s.rosterRecord s.own = { s.roster.recordOf s.own with reported := some s.ownReported } := if_pos rfl

theorem orderInForce_getD (s : State) (absent : Byte) :
    s.orderInForce.getD absent = if s.orders.unset = true then absent else s.orders.number := by
  rw [State.orderInForce]
  split <;> rfl

theorem holdBytes_some {s : State} {p : Position} {r : HoldRecord} (found : s.holds.recordOf p = some r) :
    s.holdBytes p = [1, r.reasons.toByte, r.reach, r.order]
      ++ bytes16 (BitVec.ofNat 16 (min (s.localTime - r.placed).toNat 65535))
      ++ [s.holds.unappliedHold, s.holds.unmatchedFree] := by
  have age : satOfNat 16 (s.localTime - r.placed).toNat = BitVec.ofNat 16 (min (s.localTime - r.placed).toNat 65535) :=
    satOfNat_min 16 _
  rw [State.holdBytes, found, ← age]

theorem blockerByte_eq (o : OrderUnit) : o.blockerByte = if o.counting = true then (match o.blocker with
    | none => 0xFF
    | some .loop => 0x41
    | some .ownReadiness => 0x40
    | some (.position p) => BitVec.ofNat 8 p.toNat) else 0xFF := by
  rw [OrderUnit.blockerByte]
  refine if_congr Iff.rfl ?_ rfl
  rcases o.blocker with _ | b
  · rfl
  · cases b with
    | position p => exact (BitVec.ofNat_toNat 8 p).symm
    | _ => rfl

/-- An unknown item, or an argument that its item does not have (R167). -/
theorem askInRange_false {item a : Byte} (out : item = 0 ∨ 9 < item.toNat ∨ item = 2 ∧ 32 < a.toNat
    ∨ item = 3 ∧ 1 < a.toNat ∨ item = 6 ∧ 31 < a.toNat ∨ item = 9 ∧ 1 < a.toNat) : askInRange item a = false := by
  rcases out with rfl | unknown | ⟨rfl, above⟩ | ⟨rfl, above⟩ | ⟨rfl, above⟩ | ⟨rfl, above⟩
  case inr.inl =>
    obtain ⟨n, number⟩ := Nat.exists_eq_add_of_le' unknown
    rw [askInRange, number]
    rfl
  · rfl
  all_goals exact decide_eq_false (Nat.not_le.mpr above)

/-- Settles O55: the fields of each table, most of them by the definitions' own reading. -/
theorem bodiesAsTheTables : Obligations.BodiesAsTheTables := by
  intro s hi lo r bit lead number state cause origin action direction presence count reasons
  have causes (c : Option HaltCause) : causeField c = cause c := by
    rcases c with _ | c
    · rfl
    · cases c <;> rfl
  have origins (p : Option Position) : originField p = origin p := originField_eq p
  have counts (x : Presence) : BitVec.ofNat 8 (s.countPresence x) = count x := congrArg _ (countPresence_eq s x)
  have seconds (n : Nat) : satOfNat 8 n = BitVec.ofNat 8 (min n 255) := satOfNat_min 8 n
  refine ⟨?status, rfl, rfl, fun a => rfl, ?haltRecord, ?record, ?totals, ?lines, fun a => rfl, fun a => rfl, ?noHold,
    ?hold, ?order, ?point, ?unknown⟩
  case status =>
    simp only [← causes, ← origins]
    rfl
  case haltRecord =>
    intro a
    simp only [← causes, ← origins]
    rfl
  case record =>
    intro p
    rw [answerData_rosterRecord]
    dsimp only
    by_cases own : p = s.own
    · subst own
      rw [rosterRecord_own, viewBytes_eq, if_pos rfl, if_pos rfl, ← orderInForce_getD]
      rfl
    · rw [show s.rosterRecord p = s.roster.recordOf p from if_neg own, viewBytes_eq, if_neg own, if_neg own]
      rfl
  case totals =>
    rw [← counts, ← counts]
    rfl
  case lines =>
    intro l
    simp only [← seconds]
    cases l <;> exact ⟨rfl, rfl⟩
  case noHold =>
    intro p none
    rw [answerData_holdView, State.holdBytes, none]
  case hold =>
    intro p x found
    exact (answerData_holdView s p).trans (holdBytes_some found)
  case order =>
    intro a
    exact congrArg (fun blocker => [if s.orders.unset = true then 1 else 0, number, action, direction,
      BitVec.ofNat 8 s.orders.pace, BitVec.ofNat 8 ((s.orders.musterTimer.getD 0 + 9) / 10), blocker, s.orders.refused])
      (blockerByte_eq s.orders)
  case point =>
    intro a
    rfl
  case unknown =>
    intro item a out
    exact if_neg (by rw [askInRange_false out]; decide)

end Sys2Proof.Machine
end

section
/-! Proof of the statement on the configuration checks that pass (O8). -/

open Sys2Proof Sys2Proof.Machine Host

namespace Sys2Proof.Machine

theorem lineRate_eq (c : ConfigRecord) :
    c.lineRate = [LineRate.bps9600, .bps19200, .bps38400].getD c.lineRateCode.toNat .bps38400 := by
  rw [ConfigRecord.lineRate]
  rcases c.lineRateCode.toNat with _ | _ | _ | n <;> rfl

/-- The Sensor Port at the end of the checks (R41, R43). -/
structure SensorPort.Begun (p q : SensorPort) (c : ConfigRecord) (atPacer ready : Bool) : Prop where
  select1  : q.select1 = p.select1
  pacer    : atPacer = true → q.exchange = .stopped ∧ q.clock = p.clock ∧ q.select0 = p.select0
    ∧ q.sampleTimer = p.sampleTimer
  follower : atPacer = false → q.select0 = true ∧ q.sampleTimer = some c.samplePeriod.toNat
    ∧ q.exchange = (if c.readyAsserted ready = true then .shifting else .readyWait)
    ∧ q.clock = (if c.readyAsserted ready = true then .running else .low)

theorem beginSensing_begun (u : State) (ready : Bool) :
    ∃ q, u.beginSensing ready = u.setSensor q ∧ u.sensor.Begun q u.config u.isPacer ready := by
  rw [State.beginSensing, beginExchange_form]
  cases u.isPacer with
  | true => exact ⟨_, rfl, rfl, fun _ => ⟨rfl, rfl, rfl, rfl⟩, nofun⟩
  | false => exact ⟨_, rfl, rfl, nofun, fun _ => ⟨rfl, rfl, rfl, rfl⟩⟩

/-- With the checks passed, no cause, no halt latched and the order unset, the table gives IDLE (Table 1-2). -/
theorem settledState_unset {u : State} (passed : u.loader.state = .passed) (noCause : u.loader.offlineCause = none)
    (unlatched : u.halt.latched = false) (unset : u.orders.unset = true) : u.settledState = .idle := by
  have top : u.topTier = some .idle := by
    rw [State.topTier, State.checksPassed, passed, noCause, unlatched, unset]
    simp
  rw [State.settledState, top]

/-- The station as the checks hand it over, with what its Sensor Port has begun (R171). -/
theorem checksPass_transition {s : State} (d : s.DriveInv) (reading : s.loader.state = .reading) (image : List Byte)
    (ready : Bool) : ∃ q, (s.readConfig image).checksPass ready = ((s.readConfig image).handOver.setSensor q).transition .idle
      ∧ (s.readConfig image).sensor.Begun q (ConfigRecord.ofBytes image)
        (decide (s.loader.own.toNat = (ConfigRecord.ofBytes image).towers.toNat)) ready := by
  have waits : s.loader.state ≠ .passed := by rw [reading]; decide
  have off : s.drive.state = .offline := by_contra fun on => waits (d.settled.checked on).1
  obtain ⟨unset, unlatched⟩ := d.startUp.early waits
  obtain ⟨q, begins, begun⟩ := beginSensing_begun (s.readConfig image).handOver ready
  refine ⟨q, ?_, begun⟩
  rw [State.checksPass, begins]
  exact settle_idle (settledState_unset rfl (d.startUp.reading reading) unlatched unset)
    fun idle => nomatch off.symm.trans idle

/-- The transition from OFFLINE to IDLE, block by block, with the contactor off. -/
structure State.Awake (u t : State) : Prop where
  state     : t.drive.state = .idle
  output    : t.drive.runOutput = u.drive.runOutput
  lamp      : t.drive.lamp = false
  direction : t.drive.direction = u.drive.direction
  rest      : t.drive.rest = u.drive.rest
  halt      : t.halt = { u.halt with loopClosed := true }
  orders    : t.orders = u.orders
  holds     : ∀ p, t.holds.recordOf p = none
  claim     : t.claim = ClaimUnit.reset
  line      : t.line = { u.line with claimSlot := none, statusSlot := true }
  governor  : t.governor = u.governor
  roster    : t.roster = u.roster
  loader    : t.loader = u.loader
  sensor    : t.sensor = { u.sensor with faultMark := false }
  stride    : t.stride = u.stride.atTransition .offline .idle
  time      : t.localTime = u.localTime
  pending   : t.pending = u.pending

theorem awake_of_offline {u : State} (off : u.drive.state = .offline) : u.Awake (u.transition .idle) := by
  have drive := u.transition_drive .idle
  have stride := u.transition_stride .idle
  have halt := u.transition_halt .idle
  have holds := u.transition_holds .idle
  have orders := u.transition_orders .idle
  rw [off] at drive stride halt orders
  exact {
    state := u.transition_drive_state .idle
    output := by rw [drive]; rfl
    lamp := by rw [drive]; rfl
    direction := by rw [drive]; rfl
    rest := by rw [drive]; rfl
    halt := halt
    orders := orders
    holds := fun p => by rw [holds]; exact recordOf_empty _ p
    claim := u.transition_claim .idle
    line := u.transition_line .idle
    governor := u.transition_governor .idle
    roster := u.transition_roster .idle
    loader := u.transition_loader .idle
    sensor := u.transition_sensor .idle
    stride := stride
    time := u.transition_localTime .idle
    pending := u.transition_pending .idle }

/-- What the hand-over changes (R171). -/
theorem handOver_readConfig (s : State) (image : List Byte) (q : SensorPort) :
    (s.readConfig image).handOver.setSensor q = { s with
      loader := { s.loader with state := .passed, config := ConfigRecord.ofBytes image, crc := crcFieldOf image }
      governor := { s.governor with levels := (ConfigRecord.ofBytes image).levelSet
                                    size := windowSize (ConfigRecord.ofBytes image).windowCode }
      roster := s.roster.atChecks s.loader.own (ConfigRecord.ofBytes image).towers.toNat
      line := { s.line with reportTimer := some (ConfigRecord.ofBytes image).reportPeriod
                            lineRate := (ConfigRecord.ofBytes image).lineRate }
      sensor := q } := by
  simp only [State.handOver, State.readConfig, State.setSensor, State.setLine, State.setRoster, State.setGovernor,
    State.setLoader, State.config, State.own, State.towers]

/-- Settles O8: the configuration handed over, the first exchange, and the transition to IDLE. -/
theorem checksPassedEntersIdle : Obligations.ChecksPassedEntersIdle := by
  intro s image ready d r noReset reading exchange passes
  have waits : s.loader.state ≠ .passed := by rw [reading]; decide
  have off : s.drive.state = .offline := by_contra fun on => waits (d.settled.checked on).1
  have stopped : s.drive.runOutput = false := by rw [d.contactor.1, off]; rfl
  have run : exec (.configReadComplete image ready) s = .next ((s.readConfig image).checksPass ready) := by
    rw [show exec (.configReadComplete image ready) s = _ from
      execConfigReadComplete_eq noReset reading exchange image ready, passes]
    rfl
  obtain ⟨q, settles, select1, pacer, follower⟩ := checksPass_transition d reading image ready
  have awake : ((s.readConfig image).handOver.setSensor q).Awake _ := awake_of_offline off
  rw [← settles, handOver_readConfig] at awake
  have record (p : Position) := Roster.recordOf_atChecks (r.early waits) s.loader.own
    (ConfigRecord.ofBytes image).towers.toNat p
  have own := (record s.loader.own).trans (if_pos rfl)
  refine ⟨_, run, ?_⟩
  generalize (s.readConfig image).checksPass ready = t at awake
  intro c atPacer h levels
  obtain ⟨state, output, lamp, direction, rest, halt, orders, holds, claim, line, governor, roster, loader, sensor, stride,
    time, pending⟩ := awake
  have levelled : c.levelSet = levels := by rw [levelSet_eq, hysteresisValue_eq]
  rw [state, output, lamp, direction, rest, halt, orders, claim, line, governor, roster, loader, sensor, time,
    pending, own]
  refine ⟨rfl, rfl, stopped, rfl, rfl, rfl, rfl, rfl, holds, rfl, rfl, rfl, rfl, rfl, rfl,
    lineRate_eq c, ?_, fun p => ?_,
    fun p other => ?_, rfl, rfl, rfl, rfl, rfl, select1, fun here => pacer (decide_eq_true here),
    fun here => follower (decide_eq_false here), stride, rfl, rfl⟩
  · rw [← levelled, ← windowSize_eq]
  · rw [record]
    split
    · next same => rw [same]
    · rfl
  · rw [record, if_neg other]
    rfl

end Sys2Proof.Machine
end

section
/-! Proof of the statement on a tower's STATUS (O42). -/

open Sys2Proof Sys2Proof.Machine Host

namespace Sys2Proof.Machine

/-! ### The claim fields at the Hold Table -/

/-- The claim fields of a STATUS apply: they carry the order in force from inboard, and the station is underway (R74). -/
abbrev State.Applies (u : State) (h : Header) (b : StatusBody) : Prop :=
  h.source.toNat < u.own.toNat ∧ b.flags.getLsbD 0 = false ∧ u.orderInForce = some h.order
    ∧ u.drive.state.isUnderway = true

/-- They name a reason, and their reach covers the station (R76). -/
abbrev CoversFrom (b : StatusBody) (source own : Position) : Prop :=
  (b.reasons.getLsbD 0 = true ∨ b.reasons.getLsbD 1 = true ∨ b.reasons.getLsbD 2 = true)
    ∧ own.toNat ≤ source.toNat + b.reach.toNat

theorem holdFromStatus_applied {u : State} {h : Header} {b : StatusBody} (tower : h.source ≠ 0) (applies : u.Applies h b) :
    u.holdFromStatus h b = u.applyClaim h.source b.reasons b.reach := by
  obtain ⟨inboard, flag, inForce, underway⟩ := applies
  have counted : 1 ≤ h.source.toNat := Nat.pos_of_ne_zero fun zero => tower (BitVec.eq_of_toNat_eq zero)
  refine if_pos ⟨?_, underway⟩
  rw [orderUnsetFlag, flag]
  exact (matches_iff u h).mpr ⟨counted, inboard, inForce⟩

theorem holdFromStatus_ignored {u : State} {h : Header} {b : StatusBody} (no : ¬u.Applies h b) :
    u.holdFromStatus h b = u := by
  refine if_neg fun ⟨carries, underway⟩ => ?_
  cases flag : b.flags.getLsbD 0 with
  | true =>
    rw [orderUnsetFlag, flag] at carries
    simp [State.claimMatches] at carries
  | false =>
    rw [orderUnsetFlag, flag] at carries
    obtain ⟨-, inboard, inForce⟩ := (matches_iff u h).mp carries
    exact no ⟨inboard, flag, inForce, underway⟩

/-- The hold set and the drive state of a station that has taken the claim fields. -/
structure State.Restated (u v : State) (h : Header) (b : StatusBody) : Prop where
  ignored : ¬u.Applies h b → v = u
  written : u.Applies h b → CoversFrom b h.source u.own → u.misaligned = false → v.holds.recordOf h.source =
    some { reasons := ReasonSet.ofByte b.reasons, reach := b.reach, order := h.order, placed := u.localTime }
  removed : u.Applies h b → ¬CoversFrom b h.source u.own → v.holds.recordOf h.source = none
  others  : u.misaligned = false → ∀ p, p ≠ h.source → v.holds.recordOf p = u.holds.recordOf p
  state   : u.misaligned = false → v.drive.state =
    if u.Applies h b ∧ CoversFrom b h.source u.own ∧ (u.drive.state = .wait ∨ u.drive.state = .run) then .held
    else if u.Applies h b ∧ ¬CoversFrom b h.source u.own ∧ u.drive.state = .held
        ∧ (∀ p, p ≠ h.source → u.holds.recordOf p = none) then
      (if u.runRequest = true ∧ u.drive.rest = .rested then .run else .wait)
    else u.drive.state
  unapplied : v.holds.unappliedHold = u.holds.unappliedHold
  unmatched : v.holds.unmatchedFree = u.holds.unmatchedFree

theorem writeHold_counts (u : State) (p : Position) (r : HoldRecord) :
    (u.writeHold p r).holds.unappliedHold = u.holds.unappliedHold
    ∧ (u.writeHold p r).holds.unmatchedFree = u.holds.unmatchedFree := by
  rw [State.writeHold]
  split
  · exact (holdCounts_quiet.settle (u.setHolds (u.holds.put p (some r)))).2
  · exact ⟨rfl, rfl⟩

theorem holdFromStatus_restated {u : State} (d : u.DriveInv) {h : Header} (tower : h.source ≠ 0) (b : StatusBody) :
    u.Restated (u.holdFromStatus h b) h b := by
  by_cases applies : u.Applies h b
  case neg =>
    rw [holdFromStatus_ignored applies]
    exact {
      ignored := fun _ => rfl
      written := fun yes => absurd yes applies
      removed := fun yes => absurd yes applies
      others := fun _ _ _ => rfl
      state := fun _ => by rw [if_neg fun k => applies k.1, if_neg fun k => applies k.1]
      unapplied := rfl
      unmatched := rfl }
  rw [holdFromStatus_applied tower applies]
  obtain ⟨inboard, -, inForce, -⟩ := id applies
  by_cases covers : CoversFrom b h.source u.own
  · obtain ⟨names, reaches⟩ := covers
    rw [applyClaim_covers ⟨names, inboard, reaches⟩, order_number inForce]
    obtain ⟨unapplied, unmatched⟩ := writeHold_counts u h.source
      { reasons := ReasonSet.ofByte b.reasons, reach := b.reach, order := h.order, placed := u.localTime }
    have facts := fun calm => writeHold_facts d calm h.source
      { reasons := ReasonSet.ofByte b.reasons, reach := b.reach, order := h.order, placed := u.localTime }
    have covers : CoversFrom b h.source u.own := ⟨names, reaches⟩
    exact {
      ignored := fun no => absurd applies no
      written := fun _ _ calm => by rw [(facts calm).1, HoldTable.recordOf_put, if_pos rfl]
      removed := fun _ no => absurd covers no
      others := fun calm p ne => by rw [(facts calm).1, HoldTable.recordOf_put, if_neg ne]
      state := fun calm => by
        rw [(facts calm).2, if_neg (fun k : _ ∧ ¬CoversFrom b h.source u.own ∧ _ => k.2.1 covers)]
        exact if_congr ⟨fun k => ⟨applies, covers, k⟩, fun ⟨_, _, k⟩ => k⟩ rfl rfl
      unapplied := unapplied
      unmatched := unmatched }
  · have clear : ¬((b.reasons.getLsbD 0 = true ∨ b.reasons.getLsbD 1 = true ∨ b.reasons.getLsbD 2 = true)
        ∧ h.source.toNat < u.own.toNat ∧ u.own.toNat ≤ h.source.toNat + b.reach.toNat) :=
      fun ⟨names, _, reaches⟩ => covers ⟨names, reaches⟩
    rw [applyClaim_clears clear]
    obtain ⟨record, unapplied, unmatched, others⟩ := removeHold_removed d h.source
    exact {
      ignored := fun no => absurd applies no
      written := fun _ yes => absurd yes covers
      removed := fun _ _ => record
      others := fun calm => (others calm).1
      state := fun calm => by
        rw [(others calm).2, if_neg (fun k : _ ∧ CoversFrom b h.source u.own ∧ _ => covers k.2.1)]
        exact if_congr ⟨fun k => ⟨applies, covers, k⟩, fun ⟨_, _, k⟩ => k⟩ rfl rfl
      unapplied := unapplied
      unmatched := unmatched }

/-! ### In MUSTER and outside it -/

/-- A change of the hold set in MUSTER is no more than that: the census still counts. -/
theorem setHolds_settle_muster {u : State} (d : u.DriveInv) (muster : u.drive.state = .muster) (x : HoldTable) :
    (u.setHolds x).settle = u.setHolds x := by
  refine settle_same ?_
  rw [setHolds_settled d x, muster]
  exact muster.symm

/-- A change of the hold set reports nothing, or is reported to Drive Control. -/
def State.HoldsMoved (u v : State) : Prop := ∃ x, v = u.setHolds x ∨ v = (u.setHolds x).settle

theorem writeHold_moved (u : State) (p : Position) (r : HoldRecord) : u.HoldsMoved (u.writeHold p r) := by
  rw [State.writeHold]
  exact ⟨_, (ite_eq_or_eq _ _ _).symm⟩

theorem removeHold_moved (u : State) (p : Position) : u.HoldsMoved (u.removeHold p) := by
  rw [State.removeHold]
  split
  · exact ⟨u.holds, .inl rfl⟩
  · exact ⟨_, (ite_eq_or_eq _ _ _).symm⟩

theorem holdFromStatus_moved (u : State) (h : Header) (b : StatusBody) : u.HoldsMoved (u.holdFromStatus h b) := by
  unfold State.holdFromStatus
  rcases ite_eq_or_eq (u.claimMatches h.source (if orderUnsetFlag b then none else some h.order) = true
      ∧ u.drive.state.isUnderway = true) (u.applyClaim h.source b.reasons b.reach) u with applied | ignored
  · rw [applied, State.applyClaim]
    split
    · exact writeHold_moved _ _ _
    · exact removeHold_moved _ _
  · exact ⟨u.holds, .inl ignored⟩

theorem State.HoldsMoved.muster {u v : State} (moved : u.HoldsMoved v) (d : u.DriveInv)
    (muster : u.drive.state = .muster) : v = u.setHolds v.holds := by
  obtain ⟨x, rfl | rfl⟩ := moved
  · rfl
  · rw [setHolds_settle_muster d muster]
    rfl

theorem State.HoldsMoved.not_muster {u v : State} (moved : u.HoldsMoved v) (other : u.drive.state ≠ .muster) :
    v.drive.state ≠ .muster := by
  obtain ⟨x, rfl | rfl⟩ := moved
  · exact other
  · exact settle_not_muster (s := u.setHolds x) other

/-- What every decision and every change of the hold set keeps, the claim fields keep. -/
theorem Loose.holdsMoved {R : State → State → Prop} (q : Loose R) {u v : State} (moved : u.HoldsMoved v) : R u v := by
  obtain ⟨x, rfl | rfl⟩ := moved
  · exact q.holds u x
  · exact q.trans (q.holds u x) (q.settle _)

theorem timer_loose : Loose (KeptAfterChecks State.TimerInv) :=
  ⟨timer_keep.toQuiet, fun _ _ timed => timed_congr timed rfl rfl rfl rfl rfl rfl⟩

/-! ### The origin refined -/

/-- A STATUS refines the record of a loop found open or seized (R143). -/
abbrev State.Refines (u : State) (h : Header) (b : StatusBody) : Prop :=
  u.halt.latched = true ∧ (u.halt.record.cause = some .loopOpen ∨ u.halt.record.cause = some .seized)
    ∧ u.halt.record.origin = none ∧ b.state = 8 ∧ b.origin = h.source.setWidth 8 ∧ b.cause.toNat ≤ 10

theorem refineOrigin_refines {u : State} {h : Header} {b : StatusBody} (refines : u.Refines h b) :
    u.refineOrigin h b = u.setHalt { u.halt with record := { u.halt.record with
      origin := some h.source
      remoteCause := [none, some .misalign, some .stall, some .creep, some .sensor, some .peerLost,
        some .panelLost, some .musterTimeout, some .loopOpen, some .seized, some .restart].getD b.cause.toNat none } } := by
  obtain ⟨latched, cause, unknown, halted, names, defined⟩ := refines
  refine (if_pos ⟨latched, cause, unknown, halted, names⟩).trans ?_
  rw [cause_code, if_pos defined]

theorem refineOrigin_leaves {u : State} {h : Header} {b : StatusBody} (no : ¬u.Refines h b) : u.refineOrigin h b = u := by
  rw [State.refineOrigin]
  split
  · next known =>
    obtain ⟨latched, cause, unknown, halted, names⟩ := known
    rw [cause_code, if_neg fun defined => no ⟨latched, cause, unknown, halted, names, defined⟩]
  · rfl

/-! ### The census on a station with another hold set -/

/-- The census after the claim fields in MUSTER: the hold set stands unless it completes with a lead beyond X. -/
theorem muster_holds {u : State} (d : u.DriveInv) (muster : u.drive.state = .muster) (x : HoldTable)
    (stays : ¬(u.censusBlocker = none ∧ u.leadBeyondHalt = true)) : (u.setHolds x).evaluateCensus.holds = x := by
  cases blocked : u.censusBlocker with
  | some y => exact blocked_holds (s := u.setHolds x) fun _ none => nomatch blocked.symm.trans none
  | none =>
    have below : u.leadBeyondHalt = false := Bool.eq_false_of_not_eq_true fun beyond => stays ⟨blocked, beyond⟩
    have inv := d.settleHolds x
    rw [setHolds_settle_muster d muster] at inv
    exact evaluate_holds inv below

theorem muster_empties {u : State} (d : u.DriveInv) (muster : u.drive.state = .muster) (x : HoldTable)
    (clear : u.censusBlocker = none) (beyond : u.leadBeyondHalt = true) (p : Position) :
    (u.setHolds x).evaluateCensus.holds.recordOf p = none := by
  have inv := d.settleHolds x
  rw [setHolds_settle_muster d muster] at inv
  exact census_beyond inv muster clear beyond p

/-- With a lead beyond X the hold set does not decide the state after MUSTER. -/
theorem stateAfterMuster_holds {u : State} (x y : HoldTable) (same : u.leadBeyondHalt = true ∨ x = y) :
    (u.setHolds x).stateAfterMuster = (u.setHolds y).stateAfterMuster := by
  rcases same with beyond | rfl
  · exact (if_pos beyond).trans (if_pos (show (u.setHolds y).leadBeyondHalt = true from beyond)).symm
  · rfl

/-! ### The STATUS delivered -/

/-- The census completes with a lead beyond X. -/
abbrev State.CompletesIntoHalt (u : State) : Prop :=
  u.drive.state = .muster ∧ u.censusBlocker = none ∧ u.leadBeyondHalt = true

/-- The state after the STATUS of a tower, over the one `v` that has taken its claim fields. -/
structure State.Delivered (u v t : State) (h : Header) (b : StatusBody) : Prop where
  holds    : ¬u.CompletesIntoHalt → t.holds = v.holds
  empty    : u.CompletesIntoHalt → ∀ p, t.holds.recordOf p = none
  state    : u.drive.state ≠ .muster → t.drive.state = v.drive.state
  blocked  : u.drive.state = .muster → ∀ x, u.censusBlocker = some x → t.drive.state = .muster
    ∧ t.orders.counting = true ∧ t.orders.blocker = some x
  complete : u.drive.state = .muster → u.censusBlocker = none →
    t.drive.state = State.stateAfterMuster { u with holds := t.holds } ∧ t.orders.counting = false
      ∧ t.orders.musterTimer = none
  halt     : u.drive.state = .halted → t.halt = (u.refineOrigin h b).halt

theorem delivered_muster {u : State} (d : u.DriveInv) (muster : u.drive.state = .muster) (h : Header) (b : StatusBody) :
    u.Delivered (u.holdFromStatus h b) ((u.holdFromStatus h b).refineOrigin h b).evaluateCensus h b := by
  have held := (holdFromStatus_moved u h b).muster d muster
  generalize u.holdFromStatus h b = v at held ⊢
  generalize v.holds = x at held
  subst held
  have unlatched : (u.setHolds x).halt.latched ≠ true := muster_not_latched (s := u) d muster
  rw [refine_calm unlatched]
  obtain ⟨blocked, complete⟩ := census_after d muster x
  have holds (stays : ¬u.CompletesIntoHalt) : (u.setHolds x).evaluateCensus.holds = x :=
    muster_holds d muster x fun k => stays ⟨muster, k⟩
  exact {
    holds := holds
    empty := fun ⟨_, clear, beyond⟩ => muster_empties d muster x clear beyond
    state := fun other => absurd muster other
    blocked := fun _ => blocked
    complete := fun _ clear => by
      obtain ⟨state, rest⟩ := complete clear
      refine ⟨state.trans (stateAfterMuster_holds x _ ?_), rest⟩
      by_cases beyond : u.leadBeyondHalt = true
      · exact .inl beyond
      · exact .inr (holds fun k => beyond k.2.2).symm
    halt := fun halted => nomatch halted.symm.trans muster }

theorem delivered_outside {u : State} (timed : u.TimerInv) (passed : u.loader.state = .passed)
    (other : u.drive.state ≠ .muster) (h : Header) (b : StatusBody) :
    u.Delivered (u.holdFromStatus h b) ((u.holdFromStatus h b).refineOrigin h b).evaluateCensus h b := by
  have moved := holdFromStatus_moved u h b
  have idle : (u.holdFromStatus h b).orders.counting = false := Bool.eq_false_of_not_eq_true fun counts =>
    moved.not_muster other ((timer_loose.holdsMoved moved ⟨timed, passed⟩).1.census (.inl counts))
  have ignored (halted : u.drive.state = .halted) : u.holdFromStatus h b = u :=
    holdFromStatus_ignored fun ⟨_, _, _, underway⟩ => by rw [halted] at underway; cases underway
  generalize u.holdFromStatus h b = v at idle ignored ⊢
  obtain ⟨x, refined⟩ := refineOrigin_setHalt v h b
  have calm : (v.refineOrigin h b).evaluateCensus = v.refineOrigin h b :=
    evaluate_idle (by rw [refined]; exact idle)
  rw [calm]
  exact {
    holds := fun _ => by rw [refined]; rfl
    empty := fun k => absurd k.1 other
    state := fun _ => by rw [refined]; rfl
    blocked := fun muster => absurd muster other
    complete := fun muster => absurd muster other
    halt := fun halted => by rw [ignored halted] }

/-! ### The statement -/

/-- Settles O42: the claim fields, the origin, and the census, in MUSTER and outside it. -/
theorem towerStatusRestatesClaimAndOrigin : Obligations.TowerStatusRestatesClaimAndOrigin := by
  intro s h b inv timedS accepts tower u applicable covering refines completesIntoHalt
  obtain ⟨d, on⟩ := heard_facts inv accepts fun r => { r with reported := some (reportedOf h b) }
  have timed : u.TimerInv := heard_timed timedS ((active_iff s).mp accepts.active).1 h _
  have delivered : exec (.statusFrame h b) s = .next (((u.holdFromStatus h b).refineOrigin h b).evaluateCensus) := by
    refine congrArg Host.Outcome.next ((receive_accepts accepts _ _).trans ?_)
    rw [State.deliverStatus, if_neg tower]
  change u.DriveInv at d
  change u.drive.state ≠ .offline at on
  clear_value u
  have report : u.Delivered (u.holdFromStatus h b) (((u.holdFromStatus h b).refineOrigin h b).evaluateCensus) h b := by
    by_cases muster : u.drive.state = .muster
    · exact delivered_muster d muster h b
    · exact delivered_outside timed (d.settled.checked on).1 muster h b
  have counts := (holdCounts_quiet.trans (holdCounts_quiet.refine (u.holdFromStatus h b) h b)
    (holdCounts_quiet.evaluateCensus _)).2
  obtain ⟨outer, orders, bend, tallies, lines⟩ := (State.Undisturbed.quiet.trans
    (State.Undisturbed.loose.holdsMoved (holdFromStatus_moved u h b))
    (State.Undisturbed.quiet.trans (State.Undisturbed.quiet.refine (u.holdFromStatus h b) h b)
      (State.Undisturbed.quiet.evaluateCensus _))).facts
  obtain ⟨ignored, written, removed, others, state, unapplied, unmatched⟩ := holdFromStatus_restated d tower b
  refine ⟨_, delivered, ?_⟩
  generalize ((u.holdFromStatus h b).refineOrigin h b).evaluateCensus = t at *
  generalize u.holdFromStatus h b = v at *
  obtain ⟨holds, empty, outside, blocked, complete, halt⟩ := report
  refine ⟨empty, fun yes covers calm stays => ?_, fun yes clear => ?_, fun no stays => ?_, fun calm stays p ne => ?_,
    fun calm other => ?_, fun muster => ⟨blocked muster, complete muster⟩, fun yes => ?_, fun halted no => ?_,
    counts.1.trans unapplied, counts.2.trans unmatched, outer, orders, bend, tallies, lines⟩
  · rw [holds stays]
    exact written yes covers calm
  · by_cases completes : completesIntoHalt
    · exact empty completes _
    · rw [holds completes]
      exact removed yes clear
  · rw [holds stays, ignored no]
  · rw [holds stays, others calm p ne]
  · exact (outside other).trans (state calm)
  · rw [halt ((halted_latched d on).mp yes.1), refineOrigin_refines yes]
    rfl
  · rw [halt halted, refineOrigin_leaves no]

end Sys2Proof.Machine
end
